-- ==== Sys2Proof/Word.lean ====
section
/-! DEFINITION. The two unsigned word types of the block (00_scope.md R6): bytes for frame bytes, register contents and
register addresses; 16-bit words for PM values and device IDs. No signed quantity exists. -/

namespace Sys2Proof

/-- An 8-bit unsigned value (R6). -/
abbrev Byte := BitVec 8

/-- A 16-bit unsigned value: a PM reading or a device ID (R6). -/
abbrev Half := BitVec 16

end Sys2Proof
end

