-- ==== Sys2Proof/Config.lean ====
section
/-! DEFINITION. The implementation parameters of 00_scope.md R5 and the table values of 30_encoding.md R78.
The parameters are fields of `Config`, with the spec's values as defaults, so that a statement over all states is a
statement over all their values (log entries 1 and 13). -/

namespace Sys2Proof

/-- How the two device-ID bytes form a 16-bit value (R5, R51(b)): `be` makes the first byte the high byte. -/
inductive DevIdOrder where
  | be
  | le
deriving DecidableEq, Repr

/-- Which numbers are transport error values besides 0. Uninterpreted: nothing says which (log entry 2). -/
opaque isTransportError : Nat → Bool

/-- The transport error values, the spec's parameter type `TErr` (R5, 92 D21, 93 I22). It is an uninterpreted argument of
the model: any non-empty type whose values can be written out is such a set of numbers, up to their names, and
`Obligations.TransportErrorIsOpaque` says that the names make no difference. DESIGN CHOICE (log entry 2), safe. -/
abbrev TErr : Type := { n : Nat // n = 0 ∨ isTransportError n = true }

/-- The parameters of R5 that a run may be given, with the defaults of R5.
`fcbBase` has no value in the spec: DESIGN CHOICE (log entry 15). -/
structure Config where
  head       : Byte := 0xAA
  tail       : Byte := 0xAB
  typeCmd    : Byte := 0xB4
  typeData   : Byte := 0xC0
  typeReply  : Byte := 0xC5
  devIdOrder : DevIdOrder := .be
  fcbBase    : Nat := 0
  nCmd       : Nat := 19
  nRsp       : Nat := 10
deriving DecidableEq, Repr

/-- The parameters at the values of R5 (and of log entry 15). -/
def Config.default : Config := {}

/-- `P_CMD = N_CMD - 6` (R5). -/
abbrev Config.pCmd (c : Config) : Nat := c.nCmd - 6
/-- `P_RSP = N_RSP - 6` (R5). -/
abbrev Config.pRsp (c : Config) : Nat := c.nRsp - 6

/-- Frame lengths for which the formats exist: every frame has at least six bytes (30_encoding.md R72), and a command's
payload has at least `SUB, RW, ARG` (R73). -/
abbrev Config.legal (c : Config) : Prop := 9 ≤ c.nCmd ∧ 6 ≤ c.nRsp

/-- `BROADCAST_ID` (R5). -/
def broadcastId : Half := 0xFFFF

/-! Sub-command codes, the set/query byte and the arguments of R73 and R78. -/

def subReportingMode : Byte := 0x02
def subQueryData : Byte := 0x04
def subDeviceMode : Byte := 0x06
def subFirmware : Byte := 0x07
def subWorkingPeriod : Byte := 0x08
def rwSet : Byte := 0x01
def rwQuery : Byte := 0x00
def argActive : Byte := 0x00
def argQuery : Byte := 0x01
def argSleep : Byte := 0x00
def argWork : Byte := 0x01

/-! Host opcodes (30_encoding.md R76). -/

def opEncode : Byte := 0x01
def opSend : Byte := 0x02
def opRecv : Byte := 0x03
def opXchg : Byte := 0x04
def opReset : Byte := 0x80

end Sys2Proof
end

