-- ==== Sys2Proof/Machine/Codec.lean ====
section
/-! DEFINITION. The pure frame codec: byte arithmetic (00_scope.md R8, R9), Checksum, Encode, Decode and TypeCheck
(40_frame_codec.md R100 to R110), the 16-bit assemblies (20_memory.md R51, 30_encoding.md R75). -/

namespace Sys2Proof

/-- The result codes of 60_exceptions.md R210. Codes 9 to 15 are reserved and never produced, so they have no constructor. -/
inductive ResultCode where
  | none
  | ok
  | invalidLength
  | invalidHead
  | invalidTail
  | checksumMismatch
  | unexpectedResponse
  | transportError
  | invalidState
deriving DecidableEq, Repr

/-- A decoded frame (R102): type byte, payload and the two device-ID bytes. -/
structure Frame where
  type : Byte
  pl   : List Byte
  id0  : Byte
  id1  : Byte
deriving DecidableEq, Repr

/-- `low8(v) = v mod 256` (R9). -/
def low8 (v : Nat) : Byte := BitVec.ofNat 8 v

/-- `sum(s)`: the natural-number sum of the bytes of a sequence (R9). -/
def byteSum : List Byte → Nat
  | [] => 0
  | b :: bs => b.toNat + byteSum bs

/-- `f[a..b]`, both ends included (R8); empty when `b + 1 = a`. -/
def slice (f : List Byte) (a b : Nat) : List Byte := (f.drop a).take (b + 1 - a)

/-- `zext_16` (R9). -/
def zext16 (b : Byte) : Half := b.setWidth 16

/-- The 16-bit value of two bytes, low byte first (R51(a), R75). -/
def le16 (lo hi : Byte) : Half := zext16 lo ||| (zext16 hi <<< 8)

/-- `DevId`: the 16-bit device ID of the two ID bytes by `DEVID_ORDER` (R51(b)). -/
def devId (order : DevIdOrder) (id0 id1 : Byte) : Half :=
  match order with
  | .be => le16 id1 id0
  | .le => le16 id0 id1

/-- `Checksum(f)` (R100): the payload and device-ID bytes `f[2..L-3]`, summed, low byte. -/
def checksum (f : List Byte) : Byte := low8 (byteSum (slice f 2 (f.length - 3)))

/-- `Encode_L(t, pl, id0, id1)` with `L = len(pl) + 6` (R101). -/
def encodeFrame (c : Config) (t : Byte) (pl : List Byte) (id0 id1 : Byte) : List Byte :=
  let body := pl ++ [id0, id1]
  [c.head, t] ++ body ++ [low8 (byteSum body), c.tail]

/-- `Decode_L(b)` (R102): the checks in the order length, head, tail, checksum (R106), then every field at once (R107). -/
def decodeFrame (c : Config) (L : Nat) (b : List Byte) : Except ResultCode Frame :=
  if b.length ≠ L then .error .invalidLength
  else if b[0]? ≠ some c.head then .error .invalidHead
  else if b[L - 1]? ≠ some c.tail then .error .invalidTail
  else if b[L - 2]? ≠ some (low8 (byteSum (slice b 2 (L - 3)))) then .error .checksumMismatch
  else .ok { type := b.getD 1 0, pl := slice b 2 (L - 5), id0 := b.getD (L - 4) 0, id1 := b.getD (L - 3) 0 }

/-- `TypeCheck(fr, exp)` (R110): only the type byte is compared. -/
def typeCheck (fr : Frame) (exp : Byte) : ResultCode :=
  if fr.type = exp then .ok else .unexpectedResponse

/-- The payload of a command (R73, R130): `SUB, RW, ARG` and zero bytes up to `P_CMD`. -/
def commandPayload (c : Config) (sub rw arg : Byte) : List Byte :=
  sub :: rw :: arg :: List.replicate (c.pCmd - 3) 0

/-- The ten bytes of a response frame with every field given, the checksum byte among them (R74). -/
def responseBytes (c : Config) (t p0 p1 p2 p3 id0 id1 cs : Byte) : List Byte :=
  [c.head, t, p0, p1, p2, p3, id0, id1, cs, c.tail]

end Sys2Proof
end

