-- ==== Sys2Proof/Syntax.lean ====
section
/-! DEFINITION. The instruction set (00_scope.md R1): one constructor for each row of spec/opcode_table.json, and the
raw encoded forms the decoder reads. -/

namespace Sys2Proof

/-- The 19 rows of the opcode table.
The operands of a command frame are the bytes its row leaves to the host (the device ID, and `n`); its checksum is
computed (R130), so it is no operand. The operands of a response frame are all the bytes its row leaves free, the
checksum among them, because the block checks that byte (R104). -/
inductive Instr where
  /-- R171 -/
  | encode
  /-- R172 -/
  | send
  /-- R173 -/
  | recv
  /-- R174 -/
  | xchg
  /-- R175 -/
  | reset
  /-- R176: read the register at `addr` -/
  | rd (addr : Byte)
  /-- R176: write `data` to the register at `addr`, an address other than 0x00 -/
  | wr (addr data : Byte)
  /-- R131 -/
  | setReportingQuery (id0 id1 : Byte)
  /-- R132 -/
  | setReportingActive (id0 id1 : Byte)
  /-- R133 -/
  | setSleep (id0 id1 : Byte)
  /-- R134 -/
  | setWork (id0 id1 : Byte)
  /-- R135: any `n`, not range-checked -/
  | setWorkingPeriod (n id0 id1 : Byte)
  /-- R136 -/
  | queryFirmware (id0 id1 : Byte)
  /-- R137 -/
  | queryData (id0 id1 : Byte)
  /-- R151 -/
  | dataReport (p25lo p25hi p10lo p10hi id0 id1 cs : Byte)
  /-- R152 -/
  | replyReportingMode (rw mode rsv id0 id1 cs : Byte)
  /-- R153 -/
  | replyDeviceMode (rw state rsv id0 id1 cs : Byte)
  /-- R154 -/
  | replyWorkingPeriod (rw n rsv id0 id1 cs : Byte)
  /-- R155 -/
  | replyFirmware (yy mm dd id0 id1 cs : Byte)
deriving DecidableEq, Repr

/-- The encoded form of an instruction: a host bus cycle (R76, R176) or a frame on the wire (R73, R74). The kind of
cycle is part of the encoding (the `bus` column of the opcode table): one byte alone is both an opcode and an address. -/
inductive Transaction where
  /-- host read of the register at an address -/
  | hostRead (addr : Byte)
  /-- host write of a byte to the register at an address -/
  | hostWrite (addr data : Byte)
  /-- a command frame, host to sensor -/
  | cmdFrame (bytes : List Byte)
  /-- a response frame, sensor to host -/
  | rspFrame (bytes : List Byte)
deriving DecidableEq, Repr

/-- Why bytes are no instruction. -/
inductive DecodeError where
  /-- a reserved `CTRL` value (R77) -/
  | reservedOpcode
  /-- wrong length, marker or checksum (R102) -/
  | badFrame (code : ResultCode)
  /-- a type byte outside the frame-type map (R78) -/
  | unknownType
  /-- a command payload outside the seven commands of R131 to R137 -/
  | unknownCommand
  /-- a `TYPE_REPLY` frame whose sub-command is in no row of R152 to R155 -/
  | unknownReply
deriving DecidableEq, Repr

end Sys2Proof
end

