-- ==== Sys2Proof/WellFormed.lean ====
section
/-! DEFINITION. Which terms of `Instr` are instructions of the table. Every operand is a whole byte and every byte is
allowed (30_encoding.md R79, 41_command_frames.md R135), but `WR` has an address other than 0x00: a write to `CTRL` is a
HOSTOP (R76, and the `bus` column of the WR row). -/

namespace Sys2Proof

/-- The check of each constructor. -/
def Instr.wellFormed : Instr → Bool
  | .encode => true
  | .send => true
  | .recv => true
  | .xchg => true
  | .reset => true
  | .rd _ => true
  | .wr addr _ => addr != 0x00
  | .setReportingQuery _ _ => true
  | .setReportingActive _ _ => true
  | .setSleep _ _ => true
  | .setWork _ _ => true
  | .setWorkingPeriod _ _ _ => true
  | .queryFirmware _ _ => true
  | .queryData _ _ => true
  | .dataReport _ _ _ _ _ _ _ => true
  | .replyReportingMode _ _ _ _ _ _ => true
  | .replyDeviceMode _ _ _ _ _ _ => true
  | .replyWorkingPeriod _ _ _ _ _ _ => true
  | .replyFirmware _ _ _ _ _ _ => true

end Sys2Proof
end

