-- ==== Sys2Proof/Decode.lean ====
section
/-! DEFINITION. The decoder, total on any bus cycle and any bytes, rejecting by name, and after it the encoder
(30_encoding.md R72 to R78, spec/opcode_table.json). -/

namespace Sys2Proof

/-- The HOSTOP opcodes (R76); every other value of `CTRL` is reserved (R77). -/
def decodeOpcode (op : Byte) : Except DecodeError Instr :=
  if op = opEncode then .ok .encode
  else if op = opSend then .ok .send
  else if op = opRecv then .ok .recv
  else if op = opXchg then .ok .xchg
  else if op = opReset then .ok .reset
  else .error .reservedOpcode

/-- The command of a payload (R73, R78): `SUB, RW, ARG`, then zero bytes. -/
def decodeCommandPayload (pl : List Byte) (id0 id1 : Byte) : Except DecodeError Instr :=
  match pl with
  | sub :: rw :: arg :: rest =>
    if rest ≠ List.replicate rest.length 0 then .error .unknownCommand
    else if sub = subReportingMode ∧ rw = rwSet ∧ arg = argQuery then .ok (.setReportingQuery id0 id1)
    else if sub = subReportingMode ∧ rw = rwSet ∧ arg = argActive then .ok (.setReportingActive id0 id1)
    else if sub = subDeviceMode ∧ rw = rwSet ∧ arg = argSleep then .ok (.setSleep id0 id1)
    else if sub = subDeviceMode ∧ rw = rwSet ∧ arg = argWork then .ok (.setWork id0 id1)
    else if sub = subWorkingPeriod ∧ rw = rwSet then .ok (.setWorkingPeriod arg id0 id1)
    else if sub = subFirmware ∧ rw = rwQuery ∧ arg = 0 then .ok (.queryFirmware id0 id1)
    else if sub = subQueryData ∧ rw = rwQuery ∧ arg = 0 then .ok (.queryData id0 id1)
    else .error .unknownCommand
  | _ => .error .unknownCommand

/-- A command frame (R73): a structurally valid frame of `N_CMD` bytes and type `TYPE_CMD`. -/
def decodeCommand (c : Config) (bytes : List Byte) : Except DecodeError Instr :=
  match decodeFrame c c.nCmd bytes with
  | .error e => .error (.badFrame e)
  | .ok f => if f.type = c.typeCmd then decodeCommandPayload f.pl f.id0 f.id1 else .error .unknownType

/-- A response frame (R74): ten bytes with both markers, told apart by type and sub-command. The checksum byte is an
operand here, because the table leaves it free and the block, not the decoder, checks it (R104). -/
def decodeResponse (c : Config) (bytes : List Byte) : Except DecodeError Instr :=
  match bytes with
  | [h, t, p0, p1, p2, p3, id0, id1, cs, tl] =>
    if h ≠ c.head then .error (.badFrame .invalidHead)
    else if tl ≠ c.tail then .error (.badFrame .invalidTail)
    else if t = c.typeData then .ok (.dataReport p0 p1 p2 p3 id0 id1 cs)
    else if t = c.typeReply then
      if p0 = subReportingMode then .ok (.replyReportingMode p1 p2 p3 id0 id1 cs)
      else if p0 = subDeviceMode then .ok (.replyDeviceMode p1 p2 p3 id0 id1 cs)
      else if p0 = subWorkingPeriod then .ok (.replyWorkingPeriod p1 p2 p3 id0 id1 cs)
      else if p0 = subFirmware then .ok (.replyFirmware p1 p2 p3 id0 id1 cs)
      else .error .unknownReply
    else .error .unknownType
  | _ => .error (.badFrame .invalidLength)

/-- The decoder: the bus cycle or wire frame selects the format. -/
def decode (c : Config) : Transaction → Except DecodeError Instr
  | .hostRead a => .ok (.rd a)
  | .hostWrite a d => if a = 0x00 then decodeOpcode d else .ok (.wr a d)
  | .cmdFrame bytes => decodeCommand c bytes
  | .rspFrame bytes => decodeResponse c bytes

/-- The wire bytes of a command (R130). -/
def encodeCommand (c : Config) (sub rw arg id0 id1 : Byte) : Transaction :=
  .cmdFrame (encodeFrame c c.typeCmd (commandPayload c sub rw arg) id0 id1)

/-- The encoder, written from the same tables (R73, R74, R76, R78). -/
def encode (c : Config) : Instr → Transaction
  | .encode => .hostWrite 0x00 opEncode
  | .send => .hostWrite 0x00 opSend
  | .recv => .hostWrite 0x00 opRecv
  | .xchg => .hostWrite 0x00 opXchg
  | .reset => .hostWrite 0x00 opReset
  | .rd a => .hostRead a
  | .wr a d => .hostWrite a d
  | .setReportingQuery id0 id1 => encodeCommand c subReportingMode rwSet argQuery id0 id1
  | .setReportingActive id0 id1 => encodeCommand c subReportingMode rwSet argActive id0 id1
  | .setSleep id0 id1 => encodeCommand c subDeviceMode rwSet argSleep id0 id1
  | .setWork id0 id1 => encodeCommand c subDeviceMode rwSet argWork id0 id1
  | .setWorkingPeriod n id0 id1 => encodeCommand c subWorkingPeriod rwSet n id0 id1
  | .queryFirmware id0 id1 => encodeCommand c subFirmware rwQuery 0 id0 id1
  | .queryData id0 id1 => encodeCommand c subQueryData rwQuery 0 id0 id1
  | .dataReport p0 p1 p2 p3 id0 id1 cs => .rspFrame (responseBytes c c.typeData p0 p1 p2 p3 id0 id1 cs)
  | .replyReportingMode rw mode rsv id0 id1 cs =>
    .rspFrame (responseBytes c c.typeReply subReportingMode rw mode rsv id0 id1 cs)
  | .replyDeviceMode rw st rsv id0 id1 cs =>
    .rspFrame (responseBytes c c.typeReply subDeviceMode rw st rsv id0 id1 cs)
  | .replyWorkingPeriod rw n rsv id0 id1 cs =>
    .rspFrame (responseBytes c c.typeReply subWorkingPeriod rw n rsv id0 id1 cs)
  | .replyFirmware yy mm dd id0 id1 cs =>
    .rspFrame (responseBytes c c.typeReply subFirmware yy mm dd id0 id1 cs)

/-! The opcode table's bit numbering. -/

/-- `n` bytes of a number, the first byte in its low bits. -/
def wordBytes : Nat → Nat → List Byte
  | 0, _ => []
  | n + 1, w => BitVec.ofNat 8 w :: wordBytes n (w / 256)

/-- Is this byte a defined opcode (R76)? -/
def isOpcode (op : Byte) : Bool :=
  op == opEncode || op == opSend || op == opRecv || op == opXchg || op == opReset

/-- The bytes of a command word with the computed checksum in its `CS` byte. The table gives that byte no bits of its own
(mask 00) and says what it is: `low8(sum(bytes 2..16))` (R73, R130). DESIGN CHOICE, log entry 9. -/
def withChecksum (bytes : List Byte) : List Byte := bytes.set (bytes.length - 2) (checksum bytes)

/-- The bus cycle or frame that a table word of `nbits` bits stands for. One byte is the `CTRL` datum of a HOSTOP row
where it is a defined opcode, else the address of the RD row; 16 bits are the WR row, `a = bits[15:8]`,
`d = bits[7:0]`; 80 bits are a response frame and 152 bits a command frame, first byte lowest (log entry 9). -/
def tableTransaction (nbits w : Nat) : Transaction :=
  if nbits = 8 then
    if isOpcode (BitVec.ofNat 8 w) then .hostWrite 0x00 (BitVec.ofNat 8 w) else .hostRead (BitVec.ofNat 8 w)
  else if nbits = 16 then .hostWrite (BitVec.ofNat 8 (w / 256)) (BitVec.ofNat 8 w)
  else if nbits = 80 then .rspFrame (wordBytes 10 w)
  else .cmdFrame (withChecksum (wordBytes (nbits / 8) w))

/-- The instruction the decoder reads from a table word, with the parameters of R5. -/
def decodeTableWord (nbits w : Nat) : Option Instr :=
  match decode Config.default (tableTransaction nbits w) with
  | .ok i => some i
  | .error _ => none

end Sys2Proof
end

