-- ==== Sys2Proof/Machine/State.lean ====
section
/-! DEFINITION. The state: the parameters, the block's registers (10_state.md R20), the two link streams (R35, R39(c)),
what the host has been handed, and the agenda of agent steps still to come; the reasons a step can stop; reset. -/

namespace Sys2Proof.Machine

/-- The sequencer `PHASE` (R22). -/
inductive Phase where
  | idle
  | tx
  | rx
deriving DecidableEq, Repr

/-- The fields of `STATUS` (R25). The host reads them as one byte (`Status.toByte`) and never writes them. -/
structure Status where
  result  : ResultCode
  busy    : Bool
  txValid : Bool
  rxValid : Bool
  chain   : Bool
deriving DecidableEq, Repr

/-- Why the last transport error happened (`TErrKind`, R32). -/
inductive TErrKind where
  | transport (e : TErr)
  | readZero
  | writeZero
deriving DecidableEq, Repr

/-- The block's registers (R20). `txPl` has `P_CMD` bytes and `txBuf` `N_CMD` (`State.Inv`). ⊥ is: an index of `RXBUF`
past the end of `rxBuf`, `none` for the field registers `RXTYPE, RXPL, RXID0, RXID1` (written together, R30) and for
`TERR` (log entry 14). -/
structure Block where
  phase   : Phase
  status  : Status
  txType  : Byte
  expType : Byte
  txId0   : Byte
  txId1   : Byte
  txPl    : List Byte
  txBuf   : List Byte
  txPtr   : Nat
  rxBuf   : List Byte
  rxCnt   : Nat
  rxFrame : Option Frame
  terr    : Option TErrKind
deriving DecidableEq, Repr

/-- The two link streams: `incoming` is `S` (R35), `outgoing` the bytes `LinkWrite` has accepted so far (R12, R50). -/
structure Link where
  incoming : List Byte
  outgoing : List Byte
deriving DecidableEq, Repr

/-- The typed results of 42_response_frames.md: `Measurement` (R151), unit acknowledgement (R152 to R154),
`DeviceInfo` (R155). -/
inductive Typed where
  | measurement (pm25 pm10 devid : Half)
  | ack
  | deviceInfo (year month day : Byte) (devid : Half)
deriving DecidableEq, Repr

/-- The host's side: the byte of the last `RD` (R176); the typed result of the last reception that ended (R151 to R155),
none where it gave none; and the frame last transmitted whole, until a reply is accepted (what R158's reply answers; log
entry 10). The model's own fields (log entry 6). -/
structure HostPort where
  rdData  : Option Byte
  typed   : Option Typed
  command : Option (List Byte)
deriving DecidableEq, Repr

/-- An outcome of `LinkWrite` (R12, R61). -/
inductive WriteOutcome where
  | accepted (k : Nat)
  | err (e : TErr)
deriving DecidableEq, Repr

/-- An outcome of `LinkRead` (R12, R61): how many bytes of `S`, or an error. -/
inductive ReadOutcome where
  | delivered (k : Nat)
  | err (e : TErr)
deriving DecidableEq, Repr

/-- One step of one agent, with the environment's draw in it (R18, R61). -/
inductive Event where
  /-- an encoded instruction: a host bus cycle, or a whole frame -/
  | fetch (t : Transaction)
  /-- LINK_TX (R180) -/
  | linkTx (o : WriteOutcome)
  /-- LINK_RX (R183) -/
  | linkRx (o : ReadOutcome)
  /-- SENSOR appends bytes to `S` (R35) -/
  | sensor (bytes : List Byte)
  /-- link overflow: the byte of `S` at an index is lost (R35) -/
  | lose (i : Nat)
  /-- the link is flushed or reopened from outside (R242, R252) -/
  | flush
  /-- the reset input (R175) -/
  | resetInput
deriving DecidableEq, Repr

/-- `HostFault(reason)` (60_exceptions.md R231): a host action the source calls undefined; it ends the run and changes
nothing (R232). Raised by register accesses, by `CTRL` writes and by command frames. Safe: the run stops. -/
inductive Fault where
  /-- a reserved `CTRL` value (R77), raised by a host write to `CTRL`; safe -/
  | reservedOpcode
  /-- an operation other than `RESET`, or a configuration write, while `BUSY = 1` (R41), raised by ENCODE, SEND, RECV,
  XCHG, WR and the command frames; safe -/
  | busy
  /-- an access to a reserved address (R41), raised by RD and WR; safe -/
  | reserved
  /-- a write to a read-only register (R41), raised by WR; safe -/
  | readOnly
  /-- a read of a register holding ⊥ (R10, R41, R231), raised by RD; and the mark that RD puts on the run where it reads a
  field register while `BUSY = 1` (R256; log entry 22); safe -/
  | noValue
deriving DecidableEq, Repr

/-- The whole state. `cfg` never changes in a run; `agenda` says who moves next (log entries 1 and 3). `faulted` is the mark
of a faulted run (60_exceptions.md R232): the reason of a `HostFault` whose access had its effect all the same, which is
the read of log entry 22 only, since every other one ends the run there and then; nothing clears it. -/
structure State where
  cfg    : Config
  blk    : Block
  link   : Link
  port   : HostPort
  agenda : List Event
  faulted : Option Fault
deriving DecidableEq, Repr

/-- Why the model gives a step no meaning. -/
inductive Refusal where
  /-- an instruction whose arm has no meaning yet; raised by no arm of this model; safe -/
  | notModelled (mnemonic : String)
  /-- bytes offered as a command frame that are none of R131 to R137: the host language has no such `CMD` (R83); raised by
  the step, never by an instruction; safe (log entry 16) -/
  | notACommand (e : DecodeError)
deriving DecidableEq, Repr

/-- The reset values of every block register (70_reset_and_hazards.md R240). -/
def Block.reset (c : Config) : Block where
  phase   := .idle
  status  := { result := .none, busy := false, txValid := false, rxValid := false, chain := false }
  txType  := c.typeCmd
  expType := c.typeReply
  txId0   := broadcastId.extractLsb' 8 8
  txId1   := broadcastId.extractLsb' 0 8
  txPl    := List.replicate c.pCmd 0
  txBuf   := List.replicate c.nCmd 0
  txPtr   := 0
  rxBuf   := []
  rxCnt   := 0
  rxFrame := none
  terr    := none

/-- The machine right after power-on reset: the block as R240 says, the parameters of R5. The link streams, the host port
and the agenda are empty: DESIGN CHOICE (log entries 3, 5 and 6). No run starts faulted (R232). -/
def State.reset : State where
  cfg    := Config.default
  blk    := Block.reset Config.default
  link   := { incoming := [], outgoing := [] }
  port   := { rdData := none, typed := none, command := none }
  agenda := []
  faulted := none

end Sys2Proof.Machine
end

