-- ==== Sys2Proof/Machine/Flags.lean ====
section
/-! DEFINITION. How `STATUS`, `PHASE` and `TERR` read as bytes (10_state.md R22, R25, R32; 60_exceptions.md R210). -/

namespace Sys2Proof

/-- The numeric result codes (R210). -/
def ResultCode.code : ResultCode → BitVec 4
  | .none => 0
  | .ok => 1
  | .invalidLength => 2
  | .invalidHead => 3
  | .invalidTail => 4
  | .checksumMismatch => 5
  | .unexpectedResponse => 6
  | .transportError => 7
  | .invalidState => 8

namespace Machine

/-- `STATUS` as the host reads it (R25): CHAIN, RXVALID, TXVALID, BUSY in bits 7 to 4, RESULT in bits 3:0. -/
def Status.toByte (st : Status) : Byte :=
  BitVec.ofBool st.chain ++ BitVec.ofBool st.rxValid ++ BitVec.ofBool st.txValid ++ BitVec.ofBool st.busy ++
    st.result.code

/-- `PHASE` as the host reads it (R22). -/
def Phase.toByte : Phase → Byte
  | .idle => 0
  | .tx => 1
  | .rx => 2

/-- `TERR` as the host reads it (R32): the opaque `e` is not readable. -/
def TErrKind.toByte : TErrKind → Byte
  | .transport _ => 0x03
  | .readZero => 0x01
  | .writeZero => 0x02

end Machine

end Sys2Proof
end

