-- ==== Sys2Proof/Machine/Operands.lean ====
section
/-! DEFINITION. The operand forms of RD and WR: the host register map of 10_state.md R40 in both directions, the access
column, and the place of the register space in a host's address space (20_memory.md R57).
R40 gives the map for `N_CMD = 19` and `N_RSP = 10`, and asks a model of other lengths for its own: here the same
addresses, as far as each array's window reaches, for the indices that the lengths give. DESIGN CHOICE (log entry 13). -/

namespace Sys2Proof.Machine

/-- The registers of the map (R40), an array register with the indices its window of addresses has room for. -/
inductive Reg where
  | ctrl
  | status
  | phase
  | txType
  | expType
  | txId0
  | txId1
  | txPtr
  | rxCnt
  | terr
  | txPl (i : Fin 16)
  | txBuf (i : Fin 32)
  | rxBuf (i : Fin 16)
  | rxType
  | rxPl (i : Fin 4)
  | rxId0
  | rxId1
deriving DecidableEq, Repr

/-- The address of a register (R40). -/
def Reg.addr : Reg → Byte
  | .ctrl => 0x00
  | .status => 0x01
  | .phase => 0x02
  | .txType => 0x03
  | .expType => 0x04
  | .txId0 => 0x05
  | .txId1 => 0x06
  | .txPtr => 0x07
  | .rxCnt => 0x08
  | .terr => 0x09
  | .txPl i => BitVec.ofNat 8 (0x10 + i.val)
  | .txBuf i => BitVec.ofNat 8 (0x20 + i.val)
  | .rxBuf i => BitVec.ofNat 8 (0x40 + i.val)
  | .rxType => 0x50
  | .rxPl i => BitVec.ofNat 8 (0x51 + i.val)
  | .rxId0 => 0x55
  | .rxId1 => 0x56

/-- The register whose place an address is, whatever the frame lengths. -/
def regPlace (a : Byte) : Option Reg :=
  let n := a.toNat
  if n = 0x00 then some .ctrl
  else if n = 0x01 then some .status
  else if n = 0x02 then some .phase
  else if n = 0x03 then some .txType
  else if n = 0x04 then some .expType
  else if n = 0x05 then some .txId0
  else if n = 0x06 then some .txId1
  else if n = 0x07 then some .txPtr
  else if n = 0x08 then some .rxCnt
  else if n = 0x09 then some .terr
  else if h : 0x10 ≤ n ∧ n ≤ 0x1F then some (.txPl ⟨n - 0x10, by omega⟩)
  else if h : 0x20 ≤ n ∧ n ≤ 0x3F then some (.txBuf ⟨n - 0x20, by omega⟩)
  else if h : 0x40 ≤ n ∧ n ≤ 0x4F then some (.rxBuf ⟨n - 0x40, by omega⟩)
  else if n = 0x50 then some .rxType
  else if h : 0x51 ≤ n ∧ n ≤ 0x54 then some (.rxPl ⟨n - 0x51, by omega⟩)
  else if n = 0x55 then some .rxId0
  else if n = 0x56 then some .rxId1
  else none

/-- Does the register exist with these frame lengths (R40, the array bounds)? -/
def Reg.present (c : Config) : Reg → Bool
  | .txPl i => i.val < c.pCmd
  | .txBuf i => i.val < c.nCmd
  | .rxBuf i => i.val < c.nRsp
  | .rxPl i => i.val < c.pRsp
  | _ => true

/-- The register at an address; `none` at a reserved address (R40, R41). -/
def regAt (c : Config) (a : Byte) : Option Reg := (regPlace a).filter (Reg.present c)

/-- The registers with access RW (R27, R40): written by the host while `BUSY = 0`. -/
def Reg.isConfig : Reg → Bool
  | .txType => true
  | .expType => true
  | .txId0 => true
  | .txId1 => true
  | .txPl _ => true
  | _ => false

/-- The field registers, which hold the decoded frame (R30). -/
def Reg.isField : Reg → Bool
  | .rxType => true
  | .rxPl _ => true
  | .rxId0 => true
  | .rxId1 => true
  | _ => false

/-- The register address that a host address stands for, `FCB_BASE` being where address 0x00 sits (R5, R57). -/
def regAddrOf (c : Config) (hostAddr : Nat) : Option Byte :=
  if c.fcbBase ≤ hostAddr ∧ hostAddr < c.fcbBase + 256 then some (BitVec.ofNat 8 (hostAddr - c.fcbBase)) else none

end Sys2Proof.Machine
end

