-- ==== Sys2Proof/Machine/Ops.lean ====
section
/-! DEFINITION. The shared operations on the block's registers: reading and writing a register of the map, ending an
operation (`finish`, 00_scope.md R13, 60_exceptions.md R220: the machine's only form of exception entry), starting one,
building the frame, clearing the receive side, reset, and the `Busy` rule. There is no return from an error (R221). -/

namespace Sys2Proof.Machine

/-- What a step or an instruction answers. -/
abbrev Result := Host.Outcome State Fault Refusal

/-- The byte a register of the map reads as; `none` is ⊥ (R22 to R33, R52). -/
def readReg (r : Reg) (b : Block) : Option Byte :=
  match r with
  | .ctrl => some 0x00
  | .status => some b.status.toByte
  | .phase => some b.phase.toByte
  | .txType => some b.txType
  | .expType => some b.expType
  | .txId0 => some b.txId0
  | .txId1 => some b.txId1
  | .txPtr => some (BitVec.ofNat 8 b.txPtr)
  | .rxCnt => some (BitVec.ofNat 8 b.rxCnt)
  | .terr => if b.status.result = .transportError then b.terr.map TErrKind.toByte else none
  | .txPl i => b.txPl[i.val]?
  | .txBuf i => b.txBuf[i.val]?
  | .rxBuf i => if i.val < b.rxCnt then b.rxBuf[i.val]? else none
  | .rxType => if b.status.rxValid then b.rxFrame.map (·.type) else none
  | .rxPl i => if b.status.rxValid then b.rxFrame.bind (·.pl[i.val]?) else none
  | .rxId0 => if b.status.rxValid then b.rxFrame.map (·.id0) else none
  | .rxId1 => if b.status.rxValid then b.rxFrame.map (·.id1) else none

/-- The mark of a read that has its effect (R232): a field register read while `BUSY = 1` breaks the host's read rule, so the
run is faulted with `NoValue` (70_reset_and_hazards.md R256), although the register holds a value and returns it (R41,
20_memory.md R52, 43_host_operations.md R176). DESIGN CHOICE (log entry 22). -/
def markRead (r : Reg) (s : State) : State :=
  if r.isField && s.blk.status.busy then { s with faulted := some .noValue } else s

/-- The effect of a host write to a configuration register (R27): only that register changes (R52). The other registers
are not written by the host. -/
def writeReg (r : Reg) (v : Byte) (b : Block) : Block :=
  match r with
  | .txType => { b with txType := v }
  | .expType => { b with expType := v }
  | .txId0 => { b with txId0 := v }
  | .txId1 => { b with txId1 := v }
  | .txPl i => { b with txPl := b.txPl.set i.val v }
  | _ => b

/-- `finish(code)` (R13, R220): RESULT, BUSY and PHASE; everything else stays. -/
def finish (code : ResultCode) (b : Block) : Block :=
  { b with phase := .idle, status := { b.status with result := code, busy := false } }

/-- The start of an operation that goes on in link steps (R172 to R174). -/
def begin (ph : Phase) (chain : Bool) (b : Block) : Block :=
  { b with
    phase := ph
    status := { b.status with result := .none, busy := true, chain := chain }
    terr := none }

/-- Build the frame of the transmit registers into `TXBUF` (R28, R171, R174). -/
def loadTxBuf (c : Config) (b : Block) : Block :=
  { b with
    txBuf := encodeFrame c b.txType b.txPl b.txId0 b.txId1
    txPtr := 0
    status := { b.status with txValid := true } }

/-- Every `RXBUF[i]` and every field register becomes ⊥ (R173, R174). -/
def clearRx (b : Block) : Block :=
  { b with rxBuf := [], rxCnt := 0, rxFrame := none, status := { b.status with rxValid := false } }

/-- The register effect of XCHG's start (R174). -/
def beginXchg (c : Config) (b : Block) : Block := begin .tx true (clearRx (loadTxBuf c b))

/-- Reset of the block (R175, R240): no link I/O (R241), the link untouched (R242). -/
def resetBlock (s : State) : State := { s with blk := Block.reset s.cfg }

/-- `HostFault(Busy)` for what may not start while an operation is in progress (R41, R170). -/
def whenIdle (s : State) (o : Result) : Result := if s.blk.status.busy then .fault .busy else o

end Sys2Proof.Machine
end

