-- ==== Sys2Proof/Machine/Command.lean ====
section
/-! DEFINITION. The seven command frames (41_command_frames.md R130 to R137): the host's `CMD <name>` (30_encoding.md
R82) up to the start of its exchange, in one step, the frame's own ID bytes being loaded first (log entry 7). The bytes
then cross the link in link steps, and the reply is checked against the expected type (R138). -/

namespace Sys2Proof.Machine

/-- The register loads of `CMD` (R82): the target ID, `TXTYPE`, the payload `SUB, RW, ARG` and zeros, and `EXPTYPE`. -/
def loadCommand (c : Config) (sub rw arg id0 id1 exp : Byte) (b : Block) : Block :=
  { b with
    txId0 := id0
    txId1 := id1
    txType := c.typeCmd
    txPl := commandPayload c sub rw arg
    expType := exp }

/-- A command: its registers loaded, then XCHG (R82, R138, R174). A configuration write while busy faults (R41). -/
def runCommand (sub rw arg id0 id1 exp : Byte) (s : State) : Result :=
  whenIdle s (.next { s with blk := beginXchg s.cfg (loadCommand s.cfg sub rw arg id0 id1 exp s.blk) })

/-- `SET_REPORTING_QUERY` (R131). -/
def execSetReportingQuery (id0 id1 : Byte) (s : State) : Result :=
  runCommand subReportingMode rwSet argQuery id0 id1 s.cfg.typeReply s

/-- `SET_REPORTING_ACTIVE` (R132). -/
def execSetReportingActive (id0 id1 : Byte) (s : State) : Result :=
  runCommand subReportingMode rwSet argActive id0 id1 s.cfg.typeReply s

/-- `SET_SLEEP` (R133). -/
def execSetSleep (id0 id1 : Byte) (s : State) : Result :=
  runCommand subDeviceMode rwSet argSleep id0 id1 s.cfg.typeReply s

/-- `SET_WORK` (R134). -/
def execSetWork (id0 id1 : Byte) (s : State) : Result :=
  runCommand subDeviceMode rwSet argWork id0 id1 s.cfg.typeReply s

/-- `SET_WORKING_PERIOD n` (R135): `n` is not range-checked. -/
def execSetWorkingPeriod (n id0 id1 : Byte) (s : State) : Result :=
  runCommand subWorkingPeriod rwSet n id0 id1 s.cfg.typeReply s

/-- `QUERY_FIRMWARE` (R136). -/
def execQueryFirmware (id0 id1 : Byte) (s : State) : Result :=
  runCommand subFirmware rwQuery 0 id0 id1 s.cfg.typeReply s

/-- `QUERY_DATA` (R137): the expected response is a `TYPE_DATA` frame. -/
def execQueryData (id0 id1 : Byte) (s : State) : Result :=
  runCommand subQueryData rwQuery 0 id0 id1 s.cfg.typeData s

end Sys2Proof.Machine
end

