-- ==== Sys2Proof/Machine/HostOp.lean ====
section
/-! DEFINITION. The five HOSTOP instructions (43_host_operations.md R170 to R175). Their link half happens in the link
steps (Machine/Link.lean). -/

namespace Sys2Proof.Machine

/-- `ENCODE` (R171). -/
def execEncode (s : State) : Result :=
  whenIdle s (.next { s with
    blk :=
      let b := loadTxBuf s.cfg s.blk
      { b with terr := none, status := { b.status with result := .ok } } })

/-- `SEND` (R172): `INVALID_STATE` where no frame has been encoded, with no I/O and nothing else changed but `TERR`. -/
def execSend (s : State) : Result :=
  whenIdle s (.next { s with
    blk :=
      if s.blk.status.txValid then begin .tx false { s.blk with txPtr := 0 }
      else { s.blk with terr := none, status := { s.blk.status with result := .invalidState } } })

/-- `RECV` (R173). -/
def execRecv (s : State) : Result :=
  whenIdle s (.next { s with blk := begin .rx false (clearRx s.blk) })

/-- `XCHG` (R174). -/
def execXchg (s : State) : Result :=
  whenIdle s (.next { s with blk := beginXchg s.cfg s.blk })

/-- `RESET` (R175): allowed in every state. -/
def execReset (s : State) : Result := .next (resetBlock s)

/-- A host write of `op` to `CTRL` (R170): the opcode is checked before the busy state (R219(e)). -/
def ctrlWrite (op : Byte) (s : State) : Result :=
  if op = opEncode then execEncode s
  else if op = opSend then execSend s
  else if op = opRecv then execRecv s
  else if op = opXchg then execXchg s
  else if op = opReset then execReset s
  else .fault .reservedOpcode

end Sys2Proof.Machine
end

