-- ==== Sys2Proof/Machine/HostBus.lean ====
section
/-! DEFINITION. The two HOSTBUS instructions RD and WR (43_host_operations.md R176), with the access rules of
10_state.md R41. -/

namespace Sys2Proof.Machine

/-- `RD addr` (R176): the register's byte goes to the host; no block state changes (R52). A read that breaks the host's read
rule marks the run (R256). -/
def execRd (addr : Byte) (s : State) : Result :=
  match regAt s.cfg addr with
  | none => .fault .reserved
  | some r =>
    match readReg r s.blk with
    | none => .fault .noValue
    | some v => .next (markRead r { s with port := { s.port with rdData := some v } })

/-- `WR addr, v` (R176). An address of 0x00 is not of this row (it is a HOSTOP); the ill-formed term acts as that `CTRL`
write (R33, R170; log entry 17). -/
def execWr (addr v : Byte) (s : State) : Result :=
  match regAt s.cfg addr with
  | none => .fault .reserved
  | some .ctrl => ctrlWrite v s
  | some r =>
    if r.isConfig then whenIdle s (.next { s with blk := writeReg r v s.blk }) else .fault .readOnly

end Sys2Proof.Machine
end

