-- ==== Sys2Proof/Machine/Typed.lean ====
section
/-! DEFINITION. The typed decoders of 42_response_frames.md, from a decoded frame to the semantic result. -/

namespace Sys2Proof.Machine

/-- `Measurement` (R151): both PM values little-endian, the device ID by `DEVID_ORDER`. -/
def typedMeasurement (c : Config) (f : Frame) : Typed :=
  .measurement (le16 (f.pl.getD 0 0) (f.pl.getD 1 0)) (le16 (f.pl.getD 2 0) (f.pl.getD 3 0))
    (devId c.devIdOrder f.id0 f.id1)

/-- `DeviceInfo` (R155). -/
def typedDeviceInfo (c : Config) (f : Frame) : Typed :=
  .deviceInfo (f.pl.getD 1 0) (f.pl.getD 2 0) (f.pl.getD 3 0) (devId c.devIdOrder f.id0 f.id1)

/-- The sub-commands that a typed decoder knows (R152 to R155, R159). -/
def isReplySub (sub : Byte) : Bool :=
  sub == subReportingMode || sub == subDeviceMode || sub == subWorkingPeriod || sub == subFirmware

/-- Is a frame one of the set commands of 41_command_frames.md R131 to R135: type `TYPE_CMD`, a set byte, and a
sub-command that has one? -/
def isSetCommand (c : Config) (frame : List Byte) : Bool :=
  frame[1]? == some c.typeCmd && frame[3]? == some rwSet &&
    (frame[2]? == some subReportingMode || frame[2]? == some subDeviceMode || frame[2]? == some subWorkingPeriod)

/-- Is the command that a reply answers a set command? The model takes the frame last transmitted whole, while no reply to
it has been accepted: DESIGN CHOICE (log entry 10). -/
def answersSetCommand (c : Config) (command : Option (List Byte)) : Bool := command.any (isSetCommand c)

/-- The typed result of an accepted frame (R151 to R155): a `TYPE_REPLY` frame with a known sub-command acknowledges any
set command, whatever it echoes (R158); to another command it is decoded by its own row. A `TYPE_REPLY` frame with another
sub-command, and a frame of another type, have none: the decoder refuses (R159). So does it a frame with fewer than the
four payload bytes of R151 to R155, which only `N_RSP < 10` has: DESIGN CHOICE (log entry 24). -/
def typedDecode (c : Config) (toSet : Bool) (f : Frame) : Option Typed :=
  if f.pl.length < 4 then none
  else if f.type = c.typeData then some (typedMeasurement c f)
  else if f.type = c.typeReply ∧ isReplySub (f.pl.getD 0 0) then
    if f.pl.getD 0 0 = subFirmware ∧ toSet = false then some (typedDeviceInfo c f) else some .ack
  else none

/-- What the host may take after a reception: only when it ended with `RESULT = OK` (R157, R256). -/
def typedResult (c : Config) (command : Option (List Byte)) (b : Block) : Option Typed :=
  if b.status.result = .ok ∧ b.status.rxValid then b.rxFrame.bind (typedDecode c (answersSetCommand c command)) else none

/-- Has a reception ended with a reply (and no measurement) accepted? It answers the command (41_command_frames.md R138). -/
def acceptedReply (c : Config) (b : Block) : Bool :=
  b.status.result == .ok && b.rxFrame.any fun f => f.type == c.typeReply && f.type != c.typeData

/-- The host's reading of a raw PM value by the source's scale (R156): whole micrograms per cubic metre, and hundredths. -/
def concentration (raw : Half) : Nat × Nat := (raw.toNat / 100, raw.toNat % 100)

end Sys2Proof.Machine
end

