-- ==== Sys2Proof/Machine/Link.lean ====
section
/-! DEFINITION. The link steps (43_host_operations.md R180 to R185), the steps of the environment on the incoming stream
(10_state.md R35), and the arrival of a whole frame. An agent that is not enabled, or a draw that R61 does not allow, is
no step: the state stays as it is (log entry 4). -/

namespace Sys2Proof.Machine

/-- Transmit progress by `k` bytes (R181): the link accepts the next `k` bytes of `TXBUF`. -/
def txProgress (c : Config) (k : Nat) (b : Block) : Block :=
  let b' := { b with txPtr := b.txPtr + k }
  if b.txPtr + k = c.nCmd then
    if b.status.chain then { b' with phase := .rx, status := { b'.status with chain := false } }
    else finish .ok b'
  else b'

/-- The host's side after `k` more bytes are accepted: with the last one the frame has been sent (log entry 10). -/
def afterTx (c : Config) (k : Nat) (b : Block) (p : HostPort) : HostPort :=
  if b.txPtr + k = c.nCmd then { p with command := some b.txBuf } else p

/-- Transmit failure (R182): `TXPTR` keeps the bytes accepted before. -/
def txFail (why : TErrKind) (b : Block) : Block :=
  finish .transportError { b with terr := some why, status := { b.status with chain := false } }

/-- LINK_TX (R180 to R182). -/
def linkTxStep (o : WriteOutcome) (s : State) : State :=
  match s.blk.phase, o with
  | .tx, .err e => { s with blk := txFail (.transport e) s.blk }
  | .tx, .accepted 0 => { s with blk := txFail .writeZero s.blk }
  | .tx, .accepted k =>
    if s.blk.txPtr + k ≤ s.cfg.nCmd then
      { s with
        blk := txProgress s.cfg k s.blk
        link := { s.link with outgoing := s.link.outgoing ++ (s.blk.txBuf.drop s.blk.txPtr).take k }
        port := afterTx s.cfg k s.blk s.port }
    else s
  | _, _ => s

/-- Reception complete (R184): decode, type check, field registers, `finish`, all in the step of the last byte. -/
def rxComplete (c : Config) (b : Block) : Block :=
  match decodeFrame c c.nRsp b.rxBuf with
  | .error code => finish code b
  | .ok fr =>
    finish (typeCheck fr b.expType) { b with rxFrame := some fr, status := { b.status with rxValid := true } }

/-- The block's half of a read of the bytes `bytes` (R183). -/
def rxProgress (c : Config) (bytes : List Byte) (b : Block) : Block :=
  let b' := { b with rxBuf := b.rxBuf ++ bytes, rxCnt := b.rxCnt + bytes.length }
  if b.rxCnt + bytes.length = c.nRsp then rxComplete c b' else b'

/-- Receive failure (R185): `RXCNT` and `RXBUF` keep the bytes received before. -/
def rxFail (why : TErrKind) (b : Block) : Block := finish .transportError { b with terr := some why }

/-- The state after a LINK_RX step that left the block at `b`: where the reception ended, the host is handed its typed
result, if it has one (R150 to R157; log entry 6), and an accepted reply answers the command (log entry 10). -/
def afterRx (b : Block) (s : State) : State :=
  { s with
    blk := b
    port := { s.port with
      typed := if b.phase = .idle then typedResult s.cfg s.port.command b else s.port.typed
      command := if b.phase = .idle ∧ acceptedReply s.cfg b then none else s.port.command } }

/-- LINK_RX (R183 to R185). -/
def linkRxStep (o : ReadOutcome) (s : State) : State :=
  match s.blk.phase, o with
  | .rx, .err e => afterRx (rxFail (.transport e) s.blk) s
  | .rx, .delivered 0 => afterRx (rxFail .readZero s.blk) s
  | .rx, .delivered k =>
    if s.blk.rxCnt + k ≤ s.cfg.nRsp ∧ k ≤ s.link.incoming.length then
      afterRx (rxProgress s.cfg (s.link.incoming.take k) s.blk)
        { s with link := { s.link with incoming := s.link.incoming.drop k } }
    else s
  | _, _ => s

/-- SENSOR appends bytes to `S` (R35). -/
def sensorAppend (bytes : List Byte) (s : State) : State :=
  { s with link := { s.link with incoming := s.link.incoming ++ bytes } }

/-- Overflow loses one byte of `S`, whichever the environment draws (R35); an index past the end loses none. -/
def loseByte (i : Nat) (s : State) : State :=
  { s with link := { s.link with incoming := s.link.incoming.eraseIdx i } }

/-- The link is flushed or reopened from outside (R242, R252). -/
def flushLink (s : State) : State := { s with link := { s.link with incoming := [] } }

/-- How many bytes a reception in progress can take now: what it still needs, or what `S` holds (R183). -/
def rxAvailable (s : State) : Nat := min (s.cfg.nRsp - s.blk.rxCnt) s.link.incoming.length

/-- LINK_RX taking as many bytes as it can; no step when there is no byte to take or no reception. -/
def receiveAvailable (s : State) : State :=
  if rxAvailable s = 0 then s else linkRxStep (.delivered (rxAvailable s)) s

/-- The arrival of `bytes`: SENSOR appends them to `S`, and a reception in progress reads what it can (R150; log entry 8).
Bytes that no reception takes stay in `S` (R194). -/
def arrive (bytes : List Byte) (s : State) : State := receiveAvailable (sensorAppend bytes s)

end Sys2Proof.Machine
end

