-- ==== Sys2Proof/Machine/Response.lean ====
section
/-! DEFINITION. The five response frames (42_response_frames.md R150 to R155): the frame arrives on the link; a reception
in progress reads it and checks it (R184); a frame accepted with the expected type gives its typed result (log entry 8).
No check compares the echoed sub-command, the device ID or a calendar (R155, R158, R160). -/

namespace Sys2Proof.Machine

/-- `DATA_REPORT` (R151). -/
def execDataReport (p25lo p25hi p10lo p10hi id0 id1 cs : Byte) (s : State) : Result :=
  .next (arrive (responseBytes s.cfg s.cfg.typeData p25lo p25hi p10lo p10hi id0 id1 cs) s)

/-- `REPLY_REPORTING_MODE` (R152). -/
def execReplyReportingMode (rw mode rsv id0 id1 cs : Byte) (s : State) : Result :=
  .next (arrive (responseBytes s.cfg s.cfg.typeReply subReportingMode rw mode rsv id0 id1 cs) s)

/-- `REPLY_DEVICE_MODE` (R153). -/
def execReplyDeviceMode (rw st rsv id0 id1 cs : Byte) (s : State) : Result :=
  .next (arrive (responseBytes s.cfg s.cfg.typeReply subDeviceMode rw st rsv id0 id1 cs) s)

/-- `REPLY_WORKING_PERIOD` (R154). -/
def execReplyWorkingPeriod (rw n rsv id0 id1 cs : Byte) (s : State) : Result :=
  .next (arrive (responseBytes s.cfg s.cfg.typeReply subWorkingPeriod rw n rsv id0 id1 cs) s)

/-- `REPLY_FIRMWARE` (R155). -/
def execReplyFirmware (yy mm dd id0 id1 cs : Byte) (s : State) : Result :=
  .next (arrive (responseBytes s.cfg s.cfg.typeReply subFirmware yy mm dd id0 id1 cs) s)

end Sys2Proof.Machine
end

