-- ==== Sys2Proof/Machine/Dispatch.lean ====
section
/-! DEFINITION. exec: one arm per constructor of Instr. -/

namespace Sys2Proof.Machine

def exec (i : Instr) (s : State) : Host.Outcome State Fault Refusal :=
  match i with
  | .encode => Sys2Proof.Machine.execEncode s
  | .send => Sys2Proof.Machine.execSend s
  | .recv => Sys2Proof.Machine.execRecv s
  | .xchg => Sys2Proof.Machine.execXchg s
  | .reset => Sys2Proof.Machine.execReset s
  | .rd addr => Sys2Proof.Machine.execRd addr s
  | .wr addr data => Sys2Proof.Machine.execWr addr data s
  | .setReportingQuery id0 id1 => Sys2Proof.Machine.execSetReportingQuery id0 id1 s
  | .setReportingActive id0 id1 => Sys2Proof.Machine.execSetReportingActive id0 id1 s
  | .setSleep id0 id1 => Sys2Proof.Machine.execSetSleep id0 id1 s
  | .setWork id0 id1 => Sys2Proof.Machine.execSetWork id0 id1 s
  | .setWorkingPeriod n id0 id1 => Sys2Proof.Machine.execSetWorkingPeriod n id0 id1 s
  | .queryFirmware id0 id1 => Sys2Proof.Machine.execQueryFirmware id0 id1 s
  | .queryData id0 id1 => Sys2Proof.Machine.execQueryData id0 id1 s
  | .dataReport p25lo p25hi p10lo p10hi id0 id1 cs => Sys2Proof.Machine.execDataReport p25lo p25hi p10lo p10hi id0 id1 cs s
  | .replyReportingMode rw mode rsv id0 id1 cs => Sys2Proof.Machine.execReplyReportingMode rw mode rsv id0 id1 cs s
  | .replyDeviceMode rw st rsv id0 id1 cs => Sys2Proof.Machine.execReplyDeviceMode rw st rsv id0 id1 cs s
  | .replyWorkingPeriod rw n rsv id0 id1 cs => Sys2Proof.Machine.execReplyWorkingPeriod rw n rsv id0 id1 cs s
  | .replyFirmware yy mm dd id0 id1 cs => Sys2Proof.Machine.execReplyFirmware yy mm dd id0 id1 cs s

end Sys2Proof.Machine
end

