-- ==== Sys2Proof/Machine/Events.lean ====
section
/-! DEFINITION. One step of one agent: an encoded instruction is decoded and executed; every other event is the link's or
the environment's (00_scope.md R18). -/

namespace Sys2Proof.Machine

/-- A host's instruction in a run: a faulted run does not go on (60_exceptions.md R232). -/
def hostExec (i : Instr) (s : State) : Result :=
  match s.faulted with
  | some r => .fault r
  | none => exec i s

/-- A transaction that is no instruction of the table. A reserved `CTRL` value is `HostFault(ReservedOpcode)` in every
state (R77). Bytes from the sensor that are no row of the table arrive like any others (R35, R79). Bytes that are no
command are refused: the host language has none to send them by (R83; log entry 16). -/
def undecoded (t : Transaction) (e : DecodeError) (s : State) : Result :=
  match t with
  | .hostRead _ => .fault .reserved
  | .hostWrite _ _ => .fault .reservedOpcode
  | .cmdFrame _ => .refused (.notACommand e)
  | .rspFrame bytes => .next (arrive bytes s)

/-- The step of the agent that an event names. -/
def runEvent (ev : Event) (s : State) : Result :=
  match ev with
  | .fetch t =>
    match decode s.cfg t with
    | .ok i => exec i s
    | .error e => undecoded t e s
  | .linkTx o => .next (linkTxStep o s)
  | .linkRx o => .next (linkRxStep o s)
  | .sensor bytes => .next (sensorAppend bytes s)
  | .lose i => .next (loseByte i s)
  | .flush => .next (flushLink s)
  | .resetInput => .next (resetBlock s)

end Sys2Proof.Machine
end

