-- ==== Sys2Proof/Machine/Step.lean ====
section
/-! DEFINITION. The step function: the head of the agenda moves. With an empty agenda no agent is scheduled and the state
stays as it is: the block waits for the host (70_reset_and_hazards.md R240), or an operation is stuck (R19, R253), which
is not a fault. A run marked as faulted does not go on (60_exceptions.md R232). -/

namespace Sys2Proof.Machine

/-- One step of the machine. -/
def step (s : State) : Host.Outcome State Fault Refusal :=
  match s.faulted with
  | some r => .fault r
  | none =>
    match s.agenda with
    | [] => .next s
    | ev :: rest => runEvent ev { s with agenda := rest }

/-- `s` with the table word's bus cycle or frame as the next event (log entries 3 and 9). -/
def State.withFetchWord (s : State) (nbits w : Nat) : State :=
  { s with agenda := .fetch (tableTransaction nbits w) :: s.agenda }

end Sys2Proof.Machine
end

