-- ==== Sys2Proof/Machine/Pseudo.lean ====
section
/-! DEFINITION. The pseudo-instructions of the host language (30_encoding.md R81 to R83) as expansions over the
instructions, and how the host runs them. They are not rows of the opcode table. -/

namespace Sys2Proof.Machine

/-- The command names of `CMD` (R83). -/
inductive CommandName where
  | setReportingQuery
  | setReportingActive
  | setSleep
  | setWork
  | setWorkingPeriod (n : Byte)
  | queryFirmware
  | queryData
deriving DecidableEq, Repr

/-- `SUB, RW, ARG` of a command (R78). -/
def CommandName.bytes : CommandName → List Byte
  | .setReportingQuery => [subReportingMode, rwSet, argQuery]
  | .setReportingActive => [subReportingMode, rwSet, argActive]
  | .setSleep => [subDeviceMode, rwSet, argSleep]
  | .setWork => [subDeviceMode, rwSet, argWork]
  | .setWorkingPeriod n => [subWorkingPeriod, rwSet, n]
  | .queryFirmware => [subFirmware, rwQuery, 0]
  | .queryData => [subQueryData, rwQuery, 0]

/-- The expected response type of a command (R78, 41_command_frames.md R138). -/
def CommandName.expected (c : Config) : CommandName → Byte
  | .queryData => c.typeData
  | _ => c.typeReply

/-- A line of a host program: an instruction, `WAIT`, or `SETTLE` (R82). `OP x` is the HOSTOP instruction itself. -/
inductive HostLine where
  | instr (i : Instr)
  | wait
  | settle
deriving DecidableEq, Repr

/-- `WR <reg>, <imm8>` by register name (R81). -/
def wrReg (r : Reg) (v : Byte) : Instr := .wr r.addr v

/-- `LOADPL b0, …, bk` (R82): every payload register of the map, the missing bytes as 0x00. R82 gives no meaning to more
bytes than there are registers; the surplus is dropped. DESIGN CHOICE (log entry 23). -/
def loadPl (c : Config) (bytes : List Byte) : List Instr :=
  ((List.finRange 16).filter fun i => i.val < c.pCmd).map fun i => wrReg (.txPl i) (bytes.getD i.val 0)

/-- The instructions of `CMD <name>` before its `WAIT` (R82): type, payload, expected type, exchange. -/
def cmdInstrs (c : Config) (name : CommandName) : List Instr :=
  [wrReg .txType c.typeCmd] ++ loadPl c name.bytes ++ [wrReg .expType (name.expected c), .xchg]

/-- `CMD <name>` (R82). -/
def cmdLines (c : Config) (name : CommandName) : List HostLine :=
  (cmdInstrs c name).map .instr ++ [.wait]

/-- `LISTEN` (R82). -/
def listenLines (c : Config) : List HostLine :=
  [.instr (wrReg .expType c.typeData), .instr .recv, .wait]

/-- Where a host program stands: run to its end, or in a `WAIT` that has not ended within its bound on polls (it may be
stuck for ever, R253; log entry 18), or stopped. -/
inductive HostRun where
  | finished (s : State)
  | waiting (s : State)
  | fault (r : Fault)
  | refused (r : Refusal)
deriving DecidableEq, Repr

/-- One instruction or step as a part of a host program. -/
def HostRun.ofResult : Result → HostRun
  | .next s => .finished s
  | .fault r => .fault r
  | .refused r => .refused r

/-- What follows a part of a program that ran to its end; nothing follows one that did not. -/
def HostRun.andThen (o : HostRun) (k : State → HostRun) : HostRun :=
  match o with
  | .finished s => k s
  | .waiting s => .waiting s
  | .fault r => .fault r
  | .refused r => .refused r

/-- Instructions one after the other, with no other agent's step between them. -/
def runInstrs : List Instr → State → Result
  | [], s => .next s
  | i :: is, s =>
    match hostExec i s with
    | .next t => runInstrs is t
    | .fault r => .fault r
    | .refused r => .refused r

/-- `n` steps of the agents on the agenda. -/
def agentSteps : Nat → State → HostRun
  | 0, s => .finished s
  | n + 1, s => (HostRun.ofResult (step s)).andThen (agentSteps n)

/-- `WAIT` (R82): poll `STATUS`; while bit 4 is 1 the agents move and it polls again. It ends only with `BUSY = 0`; with no
poll left it is still waiting. One event happens between two polls, which loses no schedule: a poll changes no block
state, and events after the last one are the schedule of the next line (log entry 18). -/
def runWait : Nat → State → HostRun
  | 0, s => .waiting s
  | fuel + 1, s => (HostRun.ofResult (hostExec (.rd 0x01) s)).andThen fun t =>
    if (t.port.rdData.getD 0).getLsbD 4 then (HostRun.ofResult (step t)).andThen (runWait fuel) else .finished t

/-- One line; `SETTLE` has no effect on the block (R82, R255). -/
def runLine (fuel : Nat) (l : HostLine) (s : State) : HostRun :=
  match l with
  | .instr i => HostRun.ofResult (hostExec i s)
  | .wait => runWait fuel s
  | .settle => .finished s

/-- A host program under a schedule (00_scope.md R18): `sched` says how many steps the other agents take before each line
(none past its end), so during a `SETTLE` those before the line after it. A faulted state is never its end (R232). -/
def runLines (fuel : Nat) : List Nat → List HostLine → State → HostRun
  | _, [], s =>
    match s.faulted with
    | some r => .fault r
    | none => .finished s
  | sched, l :: ls, s => (agentSteps (sched.headD 0) s).andThen fun t =>
    (runLine fuel l t).andThen (runLines fuel sched.tail ls)

end Sys2Proof.Machine
end

