-- ==== Sys2Proof/Safety.lean ====
section
/-! DEFINITION. The words claims are made in: the invariant of the reachable states (10_state.md R38 and the rules beside
it), which host actions are allowed (R41), safe runs, and runs of link steps. -/

namespace Sys2Proof.Machine

/-- The seven clauses of R38, word for word. -/
structure Block.R38 (c : Config) (b : Block) : Prop where
  busy_iff     : b.status.busy = true ↔ b.phase ≠ .idle
  tx_phase     : b.phase = .tx → b.status.txValid = true ∧ b.txPtr < c.nCmd
  rx_phase     : b.phase = .rx → b.rxCnt < c.nRsp ∧ b.status.rxValid = false
  rx_valid     : b.status.rxValid = true → b.rxCnt = c.nRsp
  busy_result  : b.status.busy = true → b.status.result = .none
  chain_tx     : b.status.chain = true → b.phase = .tx
  terr_iff     : b.terr ≠ none ↔ b.status.result = .transportError

/-- The inductive invariant: legal frame lengths (R72, R73), R38, the bounds of R23 and R24, how long the arrays are (R27,
R28), what `RXBUF` and the field registers hold (R29, R30), what `TXVALID` says of `TXBUF` (R25), that `INVALID_LENGTH` is
never in `STATUS` (R105), and that an exchange still transmitting has an empty receive side (R174). -/
structure State.Inv (s : State) : Prop where
  cfg_legal       : s.cfg.legal
  r38             : s.blk.R38 s.cfg
  txPtr_le        : s.blk.txPtr ≤ s.cfg.nCmd
  rxCnt_le        : s.blk.rxCnt ≤ s.cfg.nRsp
  txPl_length     : s.blk.txPl.length = s.cfg.pCmd
  txBuf_length    : s.blk.txBuf.length = s.cfg.nCmd
  rxBuf_length    : s.blk.rxBuf.length = s.blk.rxCnt
  rxFrame_isSome  : s.blk.rxFrame.isSome = s.blk.status.rxValid
  rxFrame_decoded : ∀ f, s.blk.rxFrame = some f → decodeFrame s.cfg s.cfg.nRsp s.blk.rxBuf = .ok f
  txBuf_encoded   : s.blk.status.txValid = true →
    ∃ t pl id0 id1, pl.length = s.cfg.pCmd ∧ s.blk.txBuf = encodeFrame s.cfg t pl id0 id1
  result_length   : s.blk.status.result ≠ .invalidLength
  chain_rx        : s.blk.status.chain = true → s.blk.rxCnt = 0 ∧ s.blk.status.rxValid = false

/-- Where an instruction is a host action the spec allows (R41, R42, R170): the condition of each constructor. -/
def allowed (i : Instr) (s : State) : Bool :=
  match i with
  | .encode => !s.blk.status.busy
  | .send => !s.blk.status.busy
  | .recv => !s.blk.status.busy
  | .xchg => !s.blk.status.busy
  | .reset => true
  | .rd a =>
    match regAt s.cfg a with
    | none => false
    | some r => (readReg r s.blk).isSome
  | .wr a v =>
    match regAt s.cfg a with
    | none => false
    | some .ctrl => isOpcode v && (v == opReset || !s.blk.status.busy)
    | some r => r.isConfig && !s.blk.status.busy
  | .setReportingQuery _ _ => !s.blk.status.busy
  | .setReportingActive _ _ => !s.blk.status.busy
  | .setSleep _ _ => !s.blk.status.busy
  | .setWork _ _ => !s.blk.status.busy
  | .setWorkingPeriod _ _ _ => !s.blk.status.busy
  | .queryFirmware _ _ => !s.blk.status.busy
  | .queryData _ _ => !s.blk.status.busy
  | .dataReport _ _ _ _ _ _ _ => true
  | .replyReportingMode _ _ _ _ _ _ => true
  | .replyDeviceMode _ _ _ _ _ _ => true
  | .replyWorkingPeriod _ _ _ _ _ _ => true
  | .replyFirmware _ _ _ _ _ _ => true

/-- The host's read rule (70_reset_and_hazards.md R256): a field register is read only when `BUSY = 0` and `RXVALID = 1`,
`TERR` only when `RESULT = TRANSPORT_ERROR`. Every other instruction keeps it. -/
def keepsReadRule (i : Instr) (s : State) : Bool :=
  match i with
  | .rd a =>
    match regAt s.cfg a with
    | none => true
    | some .terr => s.blk.status.result == .transportError
    | some r => !r.isField || (!s.blk.status.busy && s.blk.status.rxValid)
  | _ => true

/-- Is this instruction the arrival of a response frame? -/
def isResponse : Instr → Bool
  | .dataReport _ _ _ _ _ _ _ => true
  | .replyReportingMode _ _ _ _ _ _ => true
  | .replyDeviceMode _ _ _ _ _ _ => true
  | .replyWorkingPeriod _ _ _ _ _ _ => true
  | .replyFirmware _ _ _ _ _ _ => true
  | _ => false

/-- Is this event a host action: a bus cycle or a command frame (R18)? -/
def isHostAction : Event → Bool
  | .fetch (.hostRead _) => true
  | .fetch (.hostWrite _ _) => true
  | .fetch (.cmdFrame _) => true
  | _ => false

/-- A run of `n` steps with no fault, no refusal and no mark of a fault (R232: a faulted run is never a successful one). -/
def SafeRun (n : Nat) (s : State) : Prop := ∃ t, Host.Core.run Sys2Proof.core n s = .next t ∧ t.faulted = none

/-- Power-on with any parameters, any bytes on the link and any schedule of agents (R18, R240, R244). -/
def State.boot (c : Config) (l : Link) (agenda : List Event) : State where
  cfg    := c
  blk    := Block.reset c
  link   := l
  port   := { rdData := none, typed := none, command := none }
  agenda := agenda
  faulted := none

/-- A stuck operation (R19, R253): one is in progress and no agent is scheduled, in a run that is not over by a fault. -/
def State.isStuck (s : State) : Prop := s.blk.status.busy = true ∧ s.agenda = [] ∧ s.faulted = none

/-- LINK_TX steps that accept chunks of the given sizes. -/
def runTx (ks : List Nat) (s : State) : State := ks.foldl (fun u k => linkTxStep (.accepted k) u) s

/-- LINK_RX steps that deliver chunks of the given sizes. -/
def runRx (ks : List Nat) (s : State) : State := ks.foldl (fun u k => linkRxStep (.delivered k) u) s

/-! Renaming transport errors, for the statement that their values are opaque (R5, R32). -/

/-- A reason with its error renamed. -/
def TErrKind.mapErr (f : TErr → TErr) : TErrKind → TErrKind
  | .transport e => .transport (f e)
  | .readZero => .readZero
  | .writeZero => .writeZero

/-- A draw of an event with its error renamed. -/
def Event.mapErr (f : TErr → TErr) : Event → Event
  | .linkTx (.err e) => .linkTx (.err (f e))
  | .linkRx (.err e) => .linkRx (.err (f e))
  | e => e

/-- A state with every error in it renamed. -/
def State.mapErr (f : TErr → TErr) (s : State) : State :=
  { s with
    blk := { s.blk with terr := s.blk.terr.map (TErrKind.mapErr f) }
    agenda := s.agenda.map (Event.mapErr f) }

/-- A result with every error of its next state renamed. -/
def mapErrResult (f : TErr → TErr) : Result → Result
  | .next s => .next (s.mapErr f)
  | .fault r => .fault r
  | .refused r => .refused r

end Sys2Proof.Machine
end

