-- ==== Sys2Proof/Certificates/Slice0/Obligations.lean ====
section
/-! DEFINITION. The statements for the provers. Each is about every state, every parameter value and every draw unless
its hypotheses say otherwise; `s.cfg` holds the parameters of 00_scope.md R5. -/

open Sys2Proof Sys2Proof.Machine

/-! ## The frame codec -/

/-- R72, R101: every byte of an encoded frame of length `L = P + 6`, by offset; the checksum is R100's, as a number. -/
def Obligations.FrameLayoutByOffset : Prop :=
  ∀ (c : Config) (t : Byte) (pl : List Byte) (id0 id1 : Byte),
    let f := encodeFrame c t pl id0 id1
    f.length = pl.length + 6 ∧
    f[0]? = some c.head ∧
    f[1]? = some t ∧
    (∀ i, i < pl.length → f[2 + i]? = pl[i]?) ∧
    f[pl.length + 2]? = some id0 ∧
    f[pl.length + 3]? = some id1 ∧
    f[pl.length + 4]? = some (checksum f) ∧
    f[pl.length + 5]? = some c.tail ∧
    (checksum f).toNat = byteSum (pl ++ [id0, id1]) % 256

/-- R108: decoding an encoded frame gives back the type byte, the payload and the device ID. -/
def Obligations.EncodeThenDecodeIsIdentity : Prop :=
  ∀ (c : Config) (L : Nat) (t : Byte) (pl : List Byte) (id0 id1 : Byte), 6 ≤ L → pl.length = L - 6 →
    decodeFrame c L (encodeFrame c t pl id0 id1) = .ok { type := t, pl := pl, id0 := id0, id1 := id1 }

/-- R113: frames of the same length are equal exactly when all their bytes are; Encode is injective. -/
def Obligations.EncodeIsInjective : Prop :=
  (∀ f g : List Byte, f.length = g.length → (f = g ↔ ∀ i, i < f.length → f[i]? = g[i]?)) ∧
  (∀ (c : Config) (t t' : Byte) (pl pl' : List Byte) (id0 id0' id1 id1' : Byte),
    encodeFrame c t pl id0 id1 = encodeFrame c t' pl' id0' id1' → t = t' ∧ pl = pl' ∧ id0 = id0' ∧ id1 = id1')

/-- R102, with the order of R106: each error code exactly when its check is the first to fail, no other code, and a frame
exactly when every check passes, its fields taken from R72's offsets. -/
def Obligations.DecodeVerdictByFirstFailingCheck : Prop :=
  ∀ (c : Config) (L : Nat) (b : List Byte), 6 ≤ L →
    let cs := low8 (byteSum ((b.drop 2).take (L - 4)))
    (decodeFrame c L b = .error .invalidLength ↔ b.length ≠ L) ∧
    (decodeFrame c L b = .error .invalidHead ↔ b.length = L ∧ b[0]? ≠ some c.head) ∧
    (decodeFrame c L b = .error .invalidTail ↔ b.length = L ∧ b[0]? = some c.head ∧ b[L - 1]? ≠ some c.tail) ∧
    (decodeFrame c L b = .error .checksumMismatch ↔
      b.length = L ∧ b[0]? = some c.head ∧ b[L - 1]? = some c.tail ∧ b[L - 2]? ≠ some cs) ∧
    (∀ e, decodeFrame c L b = .error e →
      e = .invalidLength ∨ e = .invalidHead ∨ e = .invalidTail ∨ e = .checksumMismatch) ∧
    (∀ f, decodeFrame c L b = .ok f ↔
      b.length = L ∧ b[0]? = some c.head ∧ b[L - 1]? = some c.tail ∧ b[L - 2]? = some cs ∧
      some f.type = b[1]? ∧ f.pl = (b.drop 2).take (L - 6) ∧ some f.id0 = b[L - 4]? ∧ some f.id1 = b[L - 3]?)

/-- R109: what one changed byte does to a valid frame, by its offset. -/
def Obligations.SingleByteCorruption : Prop :=
  ∀ (c : Config) (L : Nat) (b : List Byte) (fr : Frame) (j : Nat) (old v : Byte),
    6 ≤ L → decodeFrame c L b = .ok fr → b[j]? = some old → v ≠ old →
    (2 ≤ j → j ≤ L - 2 → decodeFrame c L (b.set j v) = .error .checksumMismatch) ∧
    (j = 1 → decodeFrame c L (b.set j v) = .ok { fr with type := v } ∧
      ∀ exp, typeCheck { fr with type := v } exp = if v = exp then .ok else .unexpectedResponse) ∧
    (j = 0 → decodeFrame c L (b.set j v) = .error .invalidHead) ∧
    (j = L - 1 → decodeFrame c L (b.set j v) = .error .invalidTail)

/-- R112, the limits of the checksum: with the old checksum byte, any payload and ID of the same length whose sum is the
same modulo 256 still decodes, a reordering among them, and so does any type byte. -/
def Obligations.SameSumIsUndetected : Prop :=
  ∀ (c : Config) (t' : Byte) (pl pl' : List Byte) (id0 id1 id0' id1' : Byte),
    pl'.length = pl.length →
    (byteSum (pl' ++ [id0', id1']) % 256 = byteSum (pl ++ [id0, id1]) % 256 ∨
      (pl' ++ [id0', id1']).Perm (pl ++ [id0, id1])) →
    decodeFrame c (pl.length + 6)
        ([c.head, t'] ++ pl' ++ [id0', id1', low8 (byteSum (pl ++ [id0, id1])), c.tail]) =
      .ok { type := t', pl := pl', id0 := id0', id1 := id1' }

/-- R51(a), (b), (c) and R75: the 16-bit assemblies as numbers, and the broadcast ID under either order. -/
def Obligations.SixteenBitAssemblies : Prop :=
  (∀ lo hi : Byte, (le16 lo hi).toNat = lo.toNat + 256 * hi.toNat) ∧
  (∀ id0 id1 : Byte, (devId .be id0 id1).toNat = 256 * id0.toNat + id1.toNat) ∧
  (∀ id0 id1 : Byte, (devId .le id0 id1).toNat = id0.toNat + 256 * id1.toNat) ∧
  (∀ o : DevIdOrder, devId o 0xFF 0xFF = broadcastId)

/-! ## The instruction encodings -/

/-- Decode and encode agree: every well-formed instruction, with every operand value, under all parameters with legal frame
lengths that keep the two response types apart (they are apart by default). The ID operands of a command frame are the
model's reading of its row (log entry 7). -/
def Obligations.DecodeOfEncodeIsIdentity : Prop :=
  ∀ (c : Config) (i : Instr), c.legal → c.typeData ≠ c.typeReply → i.wellFormed = true → decode c (encode c i) = .ok i

/-- The other direction: bytes that decode are the encoding of what they decode to, so no two words share a meaning and
nothing of a word is dropped. -/
def Obligations.EncodeOfDecodeIsIdentity : Prop :=
  ∀ (c : Config) (tr : Transaction) (i : Instr), decode c tr = .ok i → encode c i = tr ∧ i.wellFormed = true

/-- Words written out from R76, R176 and the example frames of R133, R135, R137, R151, R154 and R155. -/
def Obligations.SpecWordsDecode : Prop :=
  let d := decode Config.default
  d (.hostWrite 0x00 0x01) = .ok .encode ∧
  d (.hostWrite 0x00 0x80) = .ok .reset ∧
  d (.hostWrite 0x05 0xA1) = .ok (.wr 0x05 0xA1) ∧
  d (.hostRead 0x50) = .ok (.rd 0x50) ∧
  d (.cmdFrame [0xAA, 0xB4, 0x06, 0x01, 0x00, 0, 0, 0, 0, 0, 0, 0, 0, 0, 0, 0xA1, 0x60, 0x08, 0xAB]) =
    .ok (.setSleep 0xA1 0x60) ∧
  d (.cmdFrame [0xAA, 0xB4, 0x08, 0x01, 0x05, 0, 0, 0, 0, 0, 0, 0, 0, 0, 0, 0xFF, 0xFF, 0x0C, 0xAB]) =
    .ok (.setWorkingPeriod 0x05 0xFF 0xFF) ∧
  d (.cmdFrame [0xAA, 0xB4, 0x04, 0x00, 0x00, 0, 0, 0, 0, 0, 0, 0, 0, 0, 0, 0xFF, 0xFF, 0x02, 0xAB]) =
    .ok (.queryData 0xFF 0xFF) ∧
  d (.rspFrame [0xAA, 0xC0, 0x7B, 0x00, 0x2D, 0x00, 0xAB, 0xCD, 0x20, 0xAB]) =
    .ok (.dataReport 0x7B 0x00 0x2D 0x00 0xAB 0xCD 0x20) ∧
  d (.rspFrame [0xAA, 0xC5, 0x08, 0x01, 0x05, 0x00, 0xA1, 0x60, 0x0F, 0xAB]) =
    .ok (.replyWorkingPeriod 0x01 0x05 0x00 0xA1 0x60 0x0F) ∧
  d (.rspFrame [0xAA, 0xC5, 0x07, 0x0F, 0x07, 0x0A, 0xA1, 0x60, 0x28, 0xAB]) =
    .ok (.replyFirmware 0x0F 0x07 0x0A 0xA1 0x60 0x28)

/-- R77: a host write of a reserved value to `CTRL` faults with ReservedOpcode in every state, busy or not; the five
defined values are not reserved, and while busy the four that are not RESET fault with Busy instead. -/
def Obligations.ReservedOpcodeFaults : Prop :=
  ∀ (s : State) (op : Byte),
    let write := runEvent (.fetch (.hostWrite 0x00 op))
    ((op = 0x00 ∨ (0x05 ≤ op.toNat ∧ op.toNat ≤ 0x7F) ∨ 0x81 ≤ op.toNat) → write s = .fault .reservedOpcode) ∧
    ((op = 0x01 ∨ op = 0x02 ∨ op = 0x03 ∨ op = 0x04 ∨ op = 0x80) → write s ≠ .fault .reservedOpcode) ∧
    ((op = 0x01 ∨ op = 0x02 ∨ op = 0x03 ∨ op = 0x04) → s.blk.status.busy = true → write s = .fault .busy)

/-! ## The register map and host accesses -/

/-- R40: with the frame lengths the table is for, every register of the map has its own address, and the reserved addresses
are the ones the table leaves out. For other lengths the map is the model's choice (log entry 13). -/
def Obligations.RegisterMapAddresses : Prop :=
  (∀ (c : Config) (r : Reg), r.present c = true → regAt c r.addr = some r) ∧
  (∀ (c : Config) (a : Byte) (r : Reg), regAt c a = some r → r.addr = a ∧ r.present c = true) ∧
  (∀ i : Fin 16, (Reg.txPl i).addr.toNat = 0x10 + i.val) ∧
  (∀ i : Fin 32, (Reg.txBuf i).addr.toNat = 0x20 + i.val) ∧
  (∀ i : Fin 16, (Reg.rxBuf i).addr.toNat = 0x40 + i.val) ∧
  (∀ i : Fin 4, (Reg.rxPl i).addr.toNat = 0x51 + i.val) ∧
  (∀ c : Config, c.nCmd = 19 → c.nRsp = 10 →
    (∀ i, (Reg.txPl i).present c = true ↔ i.val < 13) ∧
    (∀ i, (Reg.txBuf i).present c = true ↔ i.val < 19) ∧
    (∀ i, (Reg.rxBuf i).present c = true ↔ i.val < 10) ∧
    (∀ i, (Reg.rxPl i).present c = true) ∧
    ∀ a : Byte, regAt c a = none ↔
      (0x0A ≤ a.toNat ∧ a.toNat ≤ 0x0F) ∨ (0x1D ≤ a.toNat ∧ a.toNat ≤ 0x1F) ∨ (0x33 ≤ a.toNat ∧ a.toNat ≤ 0x3F) ∨
      (0x4A ≤ a.toNat ∧ a.toNat ≤ 0x4F) ∨ 0x57 ≤ a.toNat)

/-- R57: the register space occupies the 256 host addresses from `FCB_BASE` on. -/
def Obligations.RegisterSpaceAtBase : Prop :=
  ∀ (c : Config) (n : Nat) (a : Byte), regAddrOf c n = some a ↔ n = c.fcbBase + a.toNat

/-- R41: all five kinds of refused access, each with its reason, at the addresses of R40's map, which is for these frame
lengths. -/
def Obligations.HostAccessFaultReasons : Prop :=
  ∀ s : State, s.cfg.nCmd = 19 → s.cfg.nRsp = 10 →
    (∀ a v : Byte,
      ((0x0A ≤ a.toNat ∧ a.toNat ≤ 0x0F) ∨ (0x1D ≤ a.toNat ∧ a.toNat ≤ 0x1F) ∨ (0x33 ≤ a.toNat ∧ a.toNat ≤ 0x3F) ∨
        (0x4A ≤ a.toNat ∧ a.toNat ≤ 0x4F) ∨ 0x57 ≤ a.toNat) →
      exec (.rd a) s = .fault .reserved ∧ exec (.wr a v) s = .fault .reserved) ∧
    (∀ a v : Byte,
      (a = 0x01 ∨ a = 0x02 ∨ (0x07 ≤ a.toNat ∧ a.toNat ≤ 0x09) ∨ (0x20 ≤ a.toNat ∧ a.toNat ≤ 0x32) ∨
        (0x40 ≤ a.toNat ∧ a.toNat ≤ 0x49) ∨ (0x50 ≤ a.toNat ∧ a.toNat ≤ 0x56)) →
      exec (.wr a v) s = .fault .readOnly) ∧
    (∀ a v : Byte, s.blk.status.busy = true →
      ((0x03 ≤ a.toNat ∧ a.toNat ≤ 0x06) ∨ (0x10 ≤ a.toNat ∧ a.toNat ≤ 0x1C)) →
      exec (.wr a v) s = .fault .busy) ∧
    (s.blk.status.busy = true → ∀ op : Byte, (op = 0x01 ∨ op = 0x02 ∨ op = 0x03 ∨ op = 0x04) →
      runEvent (.fetch (.hostWrite 0x00 op)) s = .fault .busy) ∧
    (∀ op : Byte, (op = 0x00 ∨ (0x05 ≤ op.toNat ∧ op.toNat ≤ 0x7F) ∨ 0x81 ≤ op.toNat) →
      runEvent (.fetch (.hostWrite 0x00 op)) s = .fault .reservedOpcode) ∧
    (s.blk.status.result ≠ .transportError → exec (.rd 0x09) s = .fault .noValue) ∧
    (∀ i : Fin 10, s.blk.rxCnt ≤ i.val → exec (.rd (BitVec.ofNat 8 (0x40 + i.val))) s = .fault .noValue) ∧
    (∀ a : Byte, s.blk.status.rxValid = false → 0x50 ≤ a.toNat → a.toNat ≤ 0x56 →
      exec (.rd a) s = .fault .noValue)

/-- R42, R52, R176, with R22, R25, R32, R33 and R40: what each readable register reads as, with no effect but the byte handed
to the host, busy or idle. `TERR` and the field registers are read where they hold values; that the read of a field
register while busy also marks the run as faulted (R256, R232) is the model's reading of rules that disagree (log entry
22). Every array register that exists is read. The addresses are R40's; at other lengths than `N_CMD = 19` and
`N_RSP = 10` they, and that a count above 255 reads as its low byte, are the model's choices (log entry 13). -/
def Obligations.ReadsOfHeldValues : Prop :=
  ∀ s : State,
    let reads := fun (a v : Byte) => exec (.rd a) s = .next { s with port := { s.port with rdData := some v } }
    reads 0x00 0x00 ∧
    (∃ st : Byte, reads 0x01 st ∧ st.toNat % 16 = s.blk.status.result.code.toNat ∧
      st.getLsbD 4 = s.blk.status.busy ∧ st.getLsbD 5 = s.blk.status.txValid ∧
      st.getLsbD 6 = s.blk.status.rxValid ∧ st.getLsbD 7 = s.blk.status.chain) ∧
    (s.blk.phase = .idle → reads 0x02 0) ∧
    (s.blk.phase = .tx → reads 0x02 1) ∧
    (s.blk.phase = .rx → reads 0x02 2) ∧
    reads 0x03 s.blk.txType ∧
    reads 0x04 s.blk.expType ∧
    reads 0x05 s.blk.txId0 ∧
    reads 0x06 s.blk.txId1 ∧
    reads 0x07 (BitVec.ofNat 8 s.blk.txPtr) ∧
    reads 0x08 (BitVec.ofNat 8 s.blk.rxCnt) ∧
    (s.blk.status.result = .transportError →
      (∀ e, s.blk.terr = some (.transport e) → reads 0x09 0x03) ∧
      (s.blk.terr = some .readZero → reads 0x09 0x01) ∧
      (s.blk.terr = some .writeZero → reads 0x09 0x02)) ∧
    (∀ (i : Fin 16) (v : Byte), i.val < s.cfg.pCmd → s.blk.txPl[i.val]? = some v →
      reads (BitVec.ofNat 8 (0x10 + i.val)) v) ∧
    (∀ (i : Fin 32) (v : Byte), i.val < s.cfg.nCmd → s.blk.txBuf[i.val]? = some v →
      reads (BitVec.ofNat 8 (0x20 + i.val)) v) ∧
    (∀ (i : Fin 16) (v : Byte), i.val < s.cfg.nRsp → i.val < s.blk.rxCnt → s.blk.rxBuf[i.val]? = some v →
      reads (BitVec.ofNat 8 (0x40 + i.val)) v) ∧
    (∀ f, s.blk.status.rxValid = true → s.blk.rxFrame = some f →
      let reads := fun (a v : Byte) => exec (.rd a) s = .next { s with
        port := { s.port with rdData := some v }
        faulted := if s.blk.status.busy then some .noValue else s.faulted }
      reads 0x50 f.type ∧ reads 0x55 f.id0 ∧ reads 0x56 f.id1 ∧
      ∀ (i : Fin 4) (v : Byte), i.val < s.cfg.pRsp → f.pl[i.val]? = some v → reads (BitVec.ofNat 8 (0x51 + i.val)) v)

/-- R29, R30, R32 and R41, in every state that meets the invariant: a read of an `RXBUF[i]` of the map, of a field register,
of `TERR` completes exactly when the register holds a value, busy or idle, and else faults with NoValue. (What R256 adds
where a field register is read while `BUSY = 1` is ReadRuleOfTheHost.) -/
def Obligations.ValuesHeldExactlyWhen : Prop :=
  ∀ s : State, s.Inv → s.cfg.nCmd = 19 → s.cfg.nRsp = 10 →
    let readable := fun (a : Byte) (ok : Prop) =>
      (ok → ∃ t, exec (.rd a) s = .next t) ∧ (¬ ok → exec (.rd a) s = .fault .noValue)
    (∀ i, i < 10 → readable (BitVec.ofNat 8 (0x40 + i)) (i < s.blk.rxCnt)) ∧
    (∀ a : Byte, 0x50 ≤ a.toNat → a.toNat ≤ 0x56 →
      readable a (s.blk.status.rxValid = true)) ∧
    readable 0x09 (s.blk.status.result = .transportError)

/-- R27, R52 and R176 for a host write to a configuration register of an idle block: it completes, reads back as written,
and every other register, the link, the host port, the agenda and the parameters stay. That `TXPL` has `P_CMD` bytes is
part of the invariant. -/
def Obligations.ConfigWriteChangesOneRegister : Prop :=
  ∀ (s : State) (r : Reg) (v : Byte), s.blk.status.busy = false → r.isConfig = true → r.present s.cfg = true →
    s.blk.txPl.length = s.cfg.pCmd →
    ∃ t, exec (.wr r.addr v) s = .next t ∧
      (∀ r' : Reg, readReg r' t.blk = if r' = r then some v else readReg r' s.blk) ∧
      t.blk.txPl.length = s.cfg.pCmd ∧
      t = { s with blk := { s.blk with
        txType := t.blk.txType, expType := t.blk.expType, txId0 := t.blk.txId0, txId1 := t.blk.txId1,
        txPl := t.blk.txPl } }

/-- A whole-machine rule from R40, R41, R42, R170 and R176: every instruction completes exactly in the states where its host
action is allowed, whatever the operands; a response frame always arrives. In `allowed`, these are the model's choices:
that the read of a field register while busy completes, and marks the run (R256; log entry 22), the term WR with address
0x00 (log entry 17), and which addresses there are at other lengths than R40's (log entry 13). -/
def Obligations.InstructionCompletesExactlyWhenAllowed : Prop :=
  ∀ (i : Instr) (s : State), (∃ t, exec i s = .next t) ↔ allowed i s = true

/-! ## The host operations -/

/-- R171: ENCODE of an idle block builds the frame of the transmit registers; everything else stays; running it again
changes nothing. -/
def Obligations.EncodeBuildsFrame : Prop :=
  ∀ s : State, s.blk.status.busy = false →
    ∃ t, exec .encode s = .next t ∧
      t.blk.txBuf = encodeFrame s.cfg s.blk.txType s.blk.txPl s.blk.txId0 s.blk.txId1 ∧
      t = { s with blk := { s.blk with
        txBuf := t.blk.txBuf
        txPtr := 0
        terr := none
        status := { s.blk.status with txValid := true, result := .ok } } } ∧
      exec .encode t = .next t

/-- R172: SEND of an idle block. Without an encoded frame it ends at once with INVALID_STATE. With one, transmission
starts; whatever the sizes of the chunks the link accepts, it ends with OK, the bytes of TXBUF on the link in order, and
TXBUF still there to be sent again. That TXBUF has `N_CMD` bytes is part of the invariant; that the host side then holds the
frame sent is the model's own field (log entry 10). -/
def Obligations.SendTransmitsTheFrame : Prop :=
  ∀ s : State, s.blk.status.busy = false →
    (s.blk.status.txValid = false →
      exec .send s = .next { s with blk := { s.blk with
        terr := none, status := { s.blk.status with result := .invalidState } } }) ∧
    (s.blk.status.txValid = true →
      ∃ t, exec .send s = .next t ∧
        t = { s with blk := { s.blk with
          phase := .tx
          txPtr := 0
          terr := none
          status := { s.blk.status with result := .none, busy := true, chain := false } } } ∧
        ∀ ks : List Nat, (∀ k ∈ ks, 1 ≤ k) → ks.sum = s.cfg.nCmd → 1 ≤ s.cfg.nCmd →
          s.blk.txBuf.length = s.cfg.nCmd →
          runTx ks t = { s with
            blk := { s.blk with
              phase := .idle
              txPtr := s.cfg.nCmd
              terr := none
              status := { s.blk.status with result := .ok, busy := false, chain := false } }
            link := { s.link with outgoing := s.link.outgoing ++ s.blk.txBuf }
            port := { s.port with command := some s.blk.txBuf } })

/-- R173, R184: RECV of an idle block clears the receive side and sends nothing; whatever the sizes of the chunks, it ends
with the verdict on the next `N_RSP` bytes of `S`, which are taken from `S` and kept in RXBUF. -/
def Obligations.RecvChecksTheNextTenBytes : Prop :=
  ∀ s : State, s.blk.status.busy = false →
    ∃ t, exec .recv s = .next t ∧
      t = { s with blk := { s.blk with
        phase := .rx
        rxBuf := []
        rxCnt := 0
        rxFrame := none
        terr := none
        status := { s.blk.status with result := .none, busy := true, rxValid := false, chain := false } } } ∧
      ∀ ks : List Nat, (∀ k ∈ ks, 1 ≤ k) → ks.sum = s.cfg.nRsp → 1 ≤ s.cfg.nRsp → s.cfg.nRsp ≤ s.link.incoming.length →
        let u := runRx ks t
        u.link = { s.link with incoming := s.link.incoming.drop s.cfg.nRsp } ∧
        u.cfg = s.cfg ∧ u.agenda = s.agenda ∧ u.port.rdData = s.port.rdData ∧
        (∀ e, decodeFrame s.cfg s.cfg.nRsp (s.link.incoming.take s.cfg.nRsp) = .error e →
          u.blk = { s.blk with
            phase := .idle
            rxBuf := s.link.incoming.take s.cfg.nRsp
            rxCnt := s.cfg.nRsp
            rxFrame := none
            terr := none
            status := { s.blk.status with result := e, busy := false, rxValid := false, chain := false } }) ∧
        (∀ f, decodeFrame s.cfg s.cfg.nRsp (s.link.incoming.take s.cfg.nRsp) = .ok f →
          u.blk = { s.blk with
            phase := .idle
            rxBuf := s.link.incoming.take s.cfg.nRsp
            rxCnt := s.cfg.nRsp
            rxFrame := some f
            terr := none
            status := { s.blk.status with
              result := if f.type = s.blk.expType then .ok else .unexpectedResponse
              busy := false, rxValid := true, chain := false } })

/-- R174, R60(c), R181: XCHG of an idle block encodes, transmits and receives; nothing is read from `S` before all the
bytes are accepted; bytes already waiting in `S` are read first; the end is the verdict on the next `N_RSP` bytes.
That an event of LINK_RX in phase TX is consumed without effect is the model's choice (log entry 4), and so is the field for
the frame sent (log entry 10). -/
def Obligations.ExchangeTransmitsThenReceives : Prop :=
  ∀ s : State, s.blk.status.busy = false →
    ∃ t, exec .xchg s = .next t ∧
      t.blk.txBuf = encodeFrame s.cfg s.blk.txType s.blk.txPl s.blk.txId0 s.blk.txId1 ∧
      t = { s with blk := { s.blk with
        phase := .tx
        txBuf := t.blk.txBuf
        txPtr := 0
        rxBuf := []
        rxCnt := 0
        rxFrame := none
        terr := none
        status := { result := .none, busy := true, txValid := true, rxValid := false, chain := true } } } ∧
      (∀ o, linkRxStep o t = t) ∧
      ∀ ks : List Nat, (∀ k ∈ ks, 1 ≤ k) → ks.sum = s.cfg.nCmd → 6 ≤ s.cfg.nCmd →
        s.blk.txPl.length = s.cfg.pCmd →
        let u := runTx ks t
        u = { t with
          blk := { t.blk with phase := .rx, txPtr := s.cfg.nCmd, status := { t.blk.status with chain := false } }
          link := { s.link with outgoing := s.link.outgoing ++ t.blk.txBuf }
          port := { s.port with command := some t.blk.txBuf } } ∧
        ∀ (reply : List Byte) (js : List Nat), (∀ j ∈ js, 1 ≤ j) → js.sum = s.cfg.nRsp → 1 ≤ s.cfg.nRsp →
          s.cfg.nRsp ≤ (s.link.incoming ++ reply).length →
          let w := runRx js (sensorAppend reply u)
          w.link.incoming = (s.link.incoming ++ reply).drop s.cfg.nRsp ∧
          w.blk.rxBuf = (s.link.incoming ++ reply).take s.cfg.nRsp ∧ w.blk.rxCnt = s.cfg.nRsp ∧
          w.blk.phase = .idle ∧ w.blk.status.busy = false ∧ w.blk.status.txValid = true ∧ w.blk.txPtr = s.cfg.nCmd ∧
          w.blk.txBuf = t.blk.txBuf ∧
          (∀ e, decodeFrame s.cfg s.cfg.nRsp ((s.link.incoming ++ reply).take s.cfg.nRsp) = .error e →
            w.blk.status.result = e ∧ w.blk.status.rxValid = false ∧ w.blk.rxFrame = none) ∧
          (∀ f, decodeFrame s.cfg s.cfg.nRsp ((s.link.incoming ++ reply).take s.cfg.nRsp) = .ok f →
            w.blk.status.result = (if f.type = s.blk.expType then .ok else .unexpectedResponse) ∧
            w.blk.status.rxValid = true ∧ w.blk.rxFrame = some f)

/-- R240, R241, R242, R175: RESET, in every state, busy or not, and the reset input put every register at its reset value
and touch nothing else (log entry 19 for the host port and the agenda); power-on has the same values, as numbers. -/
def Obligations.ResetValues : Prop :=
  let blk := fun (c : Config) => ({
    phase := .idle
    status := { result := .none, busy := false, txValid := false, rxValid := false, chain := false }
    txType := c.typeCmd, expType := c.typeReply, txId0 := 0xFF, txId1 := 0xFF
    txPl := List.replicate (c.nCmd - 6) 0, txBuf := List.replicate c.nCmd 0, txPtr := 0
    rxBuf := [], rxCnt := 0, rxFrame := none, terr := none } : Block)
  (∀ s : State, exec .reset s = .next { s with blk := blk s.cfg }) ∧
  (∀ s : State, runEvent .resetInput s = .next { s with blk := blk s.cfg }) ∧
  State.reset.blk = { blk Config.default with
    txType := 0xB4, expType := 0xC5, txPl := List.replicate 13 0, txBuf := List.replicate 19 0 } ∧
  State.reset.blk.status.toByte = 0x00

/-! ## The link steps -/

/-- R181: the three cases of transmit progress, and the bytes it puts on the link. With the last byte the host side holds the
frame sent, the model's own field (log entry 10). -/
def Obligations.TransmitProgress : Prop :=
  ∀ (s : State) (k : Nat), s.blk.phase = .tx → 1 ≤ k → k ≤ s.cfg.nCmd - s.blk.txPtr →
    let link := { s.link with outgoing := s.link.outgoing ++ (s.blk.txBuf.drop s.blk.txPtr).take k }
    let sent := { s.port with command := some s.blk.txBuf }
    (s.blk.txPtr + k < s.cfg.nCmd → linkTxStep (.accepted k) s =
      { s with blk := { s.blk with txPtr := s.blk.txPtr + k }, link := link }) ∧
    (s.blk.txPtr + k = s.cfg.nCmd → s.blk.status.chain = true → linkTxStep (.accepted k) s =
      { s with
        blk := { s.blk with txPtr := s.cfg.nCmd, phase := .rx, status := { s.blk.status with chain := false } }
        link := link
        port := sent }) ∧
    (s.blk.txPtr + k = s.cfg.nCmd → s.blk.status.chain = false → linkTxStep (.accepted k) s =
      { s with
        blk := { s.blk with
          txPtr := s.cfg.nCmd, phase := .idle, status := { s.blk.status with result := .ok, busy := false } }
        link := link
        port := sent })

/-- R182: a transmit failure, by an error or by a count of zero, ends the operation; TXPTR stays, no reception begins. -/
def Obligations.TransmitFailure : Prop :=
  ∀ s : State, s.blk.phase = .tx →
    let failed := fun (why : TErrKind) => { s with blk := { s.blk with
      phase := .idle
      terr := some why
      status := { s.blk.status with result := .transportError, busy := false, chain := false } } }
    (∀ e, linkTxStep (.err e) s = failed (.transport e)) ∧
    linkTxStep (.accepted 0) s = failed .writeZero

/-- R183 short of completion: the bytes come off the front of `S` and are stored in arrival order. -/
def Obligations.ReceiveProgress : Prop :=
  ∀ (s : State) (k : Nat), s.blk.phase = .rx → 1 ≤ k → s.blk.rxCnt + k < s.cfg.nRsp → k ≤ s.link.incoming.length →
    linkRxStep (.delivered k) s = { s with
      blk := { s.blk with rxBuf := s.blk.rxBuf ++ s.link.incoming.take k, rxCnt := s.blk.rxCnt + k }
      link := { s.link with incoming := s.link.incoming.drop k } }

/-- R184: the step in which RXCNT becomes `N_RSP` decodes, checks the type and ends the operation, for every verdict. -/
def Obligations.ReceptionComplete : Prop :=
  ∀ (s : State) (k : Nat), s.blk.phase = .rx → 1 ≤ k → s.blk.rxCnt + k = s.cfg.nRsp → k ≤ s.link.incoming.length →
    s.blk.rxBuf.length = s.blk.rxCnt → 6 ≤ s.cfg.nRsp →
    let window := s.blk.rxBuf ++ s.link.incoming.take k
    let t := linkRxStep (.delivered k) s
    t.link = { s.link with incoming := s.link.incoming.drop k } ∧ t.cfg = s.cfg ∧ t.agenda = s.agenda ∧
    (∀ code, decodeFrame s.cfg s.cfg.nRsp window = .error code →
      (code = .invalidHead ∨ code = .invalidTail ∨ code = .checksumMismatch) ∧
      t.blk = { s.blk with
        phase := .idle, rxBuf := window, rxCnt := s.cfg.nRsp
        status := { s.blk.status with result := code, busy := false } }) ∧
    (∀ f, decodeFrame s.cfg s.cfg.nRsp window = .ok f →
      t.blk = { s.blk with
        phase := .idle, rxBuf := window, rxCnt := s.cfg.nRsp, rxFrame := some f
        status := { s.blk.status with
          result := if f.type = s.blk.expType then .ok else .unexpectedResponse
          busy := false, rxValid := true } })

/-- R185: a receive failure, by an error or by a count of zero, keeps what has been received and returns nothing to `S`. -/
def Obligations.ReceiveFailure : Prop :=
  ∀ s : State, s.blk.phase = .rx →
    let failed := fun (why : TErrKind) => { s.blk with
      phase := .idle
      terr := some why
      status := { s.blk.status with result := .transportError, busy := false } }
    (∀ e, (linkRxStep (.err e) s).blk = failed (.transport e) ∧ (linkRxStep (.err e) s).link = s.link) ∧
    (linkRxStep (.delivered 0) s).blk = failed .readZero ∧ (linkRxStep (.delivered 0) s).link = s.link

/-- R180, R183, R253: a link agent that is not enabled does nothing, and a reception with nothing in `S` waits. That the
event of a disabled agent is consumed without effect is the model's choice (log entry 4). -/
def Obligations.DisabledLinkStepsDoNothing : Prop :=
  (∀ (s : State) (o : WriteOutcome), s.blk.phase ≠ .tx → linkTxStep o s = s) ∧
  (∀ (s : State) (o : ReadOutcome), s.blk.phase ≠ .rx → linkRxStep o s = s) ∧
  (∀ (s : State) (k : Nat), 1 ≤ k → s.link.incoming = [] → linkRxStep (.delivered k) s = s)

/-- R61, its last sentence: with no error, the state a transmission or a reception reaches does not depend on the sizes
of the chunks, only on their sum. -/
def Obligations.ChunkSizesDoNotMatter : Prop :=
  (∀ (s : State) (ks : List Nat), s.blk.phase = .tx → ks ≠ [] → (∀ k ∈ ks, 1 ≤ k) → s.blk.txPtr + ks.sum ≤ s.cfg.nCmd →
    runTx ks s = linkTxStep (.accepted ks.sum) s) ∧
  (∀ (s : State) (ks : List Nat), s.blk.phase = .rx → ks ≠ [] → (∀ k ∈ ks, 1 ≤ k) → s.blk.rxCnt + ks.sum ≤ s.cfg.nRsp →
    ks.sum ≤ s.link.incoming.length →
    runRx ks s = linkRxStep (.delivered ks.sum) s)

/-- R150: the verdict OK exactly when the bytes received decode to a frame whose type is EXPTYPE, and then the field registers
hold that frame. -/
def Obligations.AcceptedExactlyWhenExpected : Prop :=
  ∀ (c : Config) (b : Block),
    let b' := rxComplete c b
    (b'.status.result = .ok ↔ ∃ f, decodeFrame c c.nRsp b.rxBuf = .ok f ∧ f.type = b.expType) ∧
    (∀ f, decodeFrame c c.nRsp b.rxBuf = .ok f → f.type = b.expType →
      b'.status.result = .ok ∧ b'.status.rxValid = true ∧ b'.rxFrame = some f)

/-- R190: whatever the bytes are, a reception takes exactly the next `N_RSP` bytes of `S` as its frame, ends, and leaves the
rest of `S`; nothing is searched for or discarded, also after an error. -/
def Obligations.NoResynchronisation : Prop :=
  ∀ s : State, s.blk.phase = .rx → s.blk.rxCnt = 0 → s.blk.rxBuf = [] → 6 ≤ s.cfg.nRsp →
    s.cfg.nRsp ≤ s.link.incoming.length →
    let t := linkRxStep (.delivered s.cfg.nRsp) s
    t.blk.rxBuf = s.link.incoming.take s.cfg.nRsp ∧ t.link.incoming = s.link.incoming.drop s.cfg.nRsp ∧
    t.blk.phase = .idle ∧ t.blk.status.busy = false ∧ t.blk.status.result ≠ .none ∧
    (s.link.incoming[0]? ≠ some s.cfg.head → t.blk.status.result = .invalidHead)

/-- R66, what the block does to `S`: an instruction other than a response frame takes no byte from it and adds none; a
response frame outside a reception only adds its bytes at the end, and within one it is read as far as the frame needs; a
LINK_TX step leaves `S`; a LINK_RX step takes bytes only in phase RX. Every byte taken is stored, and none beyond the
frame is. (Losses and flushes are the environment's: StepOfTheOtherAgents, log entry 12.) -/
def Obligations.BytesReadAreStored : Prop :=
  (∀ (i : Instr) (s t : State), exec i s = .next t → isResponse i = false → t.link.incoming = s.link.incoming) ∧
  (∀ (i : Instr) (s t : State), exec i s = .next t → s.blk.phase ≠ .rx →
    ∃ bs, t.link.incoming = s.link.incoming ++ bs) ∧
  (∀ (i : Instr) (s t : State) (bs : List Byte), exec i s = .next t → encode s.cfg i = .rspFrame bs →
    s.blk.phase = .rx → ∃ k, k ≤ s.cfg.nRsp - s.blk.rxCnt ∧
      t.link.incoming = (s.link.incoming ++ bs).drop k ∧ t.blk.rxBuf = s.blk.rxBuf ++ (s.link.incoming ++ bs).take k) ∧
  (∀ (o : WriteOutcome) (s : State), (linkTxStep o s).link.incoming = s.link.incoming) ∧
  (∀ (o : ReadOutcome) (s : State), ∃ k,
    (k = 0 ∨ (s.blk.phase = .rx ∧ s.blk.rxCnt + k ≤ s.cfg.nRsp)) ∧
    (linkRxStep o s).link.incoming = s.link.incoming.drop k ∧
    (linkRxStep o s).blk.rxBuf = s.blk.rxBuf ++ s.link.incoming.take k)

/-- R187: the result an operation ends with, operation by operation, in every state that meets the invariant. A link step
that ends a transmission or a reception is the end of SEND, RECV or XCHG. -/
def Obligations.ResultOfEachOperation : Prop :=
  ∀ s : State, s.Inv →
    (∀ t, exec .encode s = .next t → t.blk.status.result = .ok) ∧
    (∀ t, exec .send s = .next t → t.blk.phase = .idle → t.blk.status.result = .invalidState) ∧
    (∀ t, exec .reset s = .next t → t.blk.status.result = .none) ∧
    (∀ o, s.blk.phase = .tx → (linkTxStep o s).blk.phase = .idle →
      ((linkTxStep o s).blk.status.result = .ok ∧ s.blk.status.chain = false) ∨
      (linkTxStep o s).blk.status.result = .transportError) ∧
    (∀ o, s.blk.phase = .rx → (linkRxStep o s).blk.phase = .idle →
      let r := (linkRxStep o s).blk.status.result
      r = .ok ∨ r = .invalidHead ∨ r = .invalidTail ∨ r = .checksumMismatch ∨ r = .unexpectedResponse ∨
        r = .transportError)

/-- R220, R26: a link step that ends an operation clears BUSY and leaves every register it does not name: the
configuration registers, TXBUF and TXVALID always; the receive side too when it ends a transmission; TXPTR and CHAIN when
it ends a reception. -/
def Obligations.EndOfOperationFrame : Prop :=
  (∀ (o : WriteOutcome) (s : State), s.blk.phase = .tx → (linkTxStep o s).blk.phase = .idle →
    let t := linkTxStep o s
    t = { s with
      blk := { s.blk with
        phase := .idle, txPtr := t.blk.txPtr, terr := t.blk.terr
        status := { s.blk.status with result := t.blk.status.result, busy := false, chain := t.blk.status.chain } }
      link := { s.link with outgoing := t.link.outgoing }
      port := { s.port with command := t.port.command } }) ∧
  (∀ (o : ReadOutcome) (s : State), s.blk.phase = .rx → (linkRxStep o s).blk.phase = .idle →
    let t := linkRxStep o s
    t = { s with
      blk := { s.blk with
        phase := .idle, rxBuf := t.blk.rxBuf, rxCnt := t.blk.rxCnt, rxFrame := t.blk.rxFrame, terr := t.blk.terr
        status := { s.blk.status with
          result := t.blk.status.result, busy := false, rxValid := t.blk.status.rxValid } }
      link := { s.link with incoming := t.link.incoming }
      port := { s.port with typed := t.port.typed, command := t.port.command } })

/-! ## Whole-machine rules -/

/-- The invariant holds right after reset, and after power-on with any parameters of legal frame lengths, any link and any
schedule. -/
def Obligations.InvariantHoldsAtPowerOn : Prop :=
  State.reset.Inv ∧ ∀ (c : Config) (l : Link) (agenda : List Event), c.legal → (State.boot c l agenda).Inv

/-- Every step of every agent keeps the invariant: R38 and the clauses beside it (Safety.lean). -/
def Obligations.EveryStepKeepsTheInvariant : Prop :=
  ∀ s t : State, s.Inv → step s = .next t → t.Inv

/-- R38: every state reached from power-on, with any parameters of legal frame lengths, any bytes on the link and any
schedule of agents and draws, satisfies all seven clauses. -/
def Obligations.ReachableStatesSatisfyR38 : Prop :=
  ∀ (c : Config) (l : Link) (agenda : List Event) (n : Nat) (s : State), c.legal →
    Host.Core.run Sys2Proof.core n (State.boot c l agenda) = .next s → s.blk.R38 c

/-- R20, R35: no step changes the parameters, and a step consumes one event of the agenda, if there is one. -/
def Obligations.StepKeepsParameters : Prop :=
  ∀ s t : State, step s = .next t → t.cfg = s.cfg ∧ t.agenda = s.agenda.tail

/-- When the head of the agenda is an encoded instruction, the step is that instruction executed on the state with the
event taken off, in a run that is not faulted (R232: ReadRuleAndFaultedRuns); so in particular for a table word placed by
`withFetchWord` (log entries 3 and 9). -/
def Obligations.StepRunsDecodedInstruction : Prop :=
  (∀ (s : State) (tr : Transaction) (rest : List Event) (i : Instr),
    s.faulted = none → s.agenda = .fetch tr :: rest → decode s.cfg tr = .ok i → step s = exec i { s with agenda := rest }) ∧
  (∀ (s : State) (nbits w : Nat) (i : Instr),
    s.faulted = none → s.cfg = Config.default → decodeTableWord nbits w = some i → step (s.withFetchWord nbits w) = exec i s)

/-- R18, R35, R77, R175, R240, R242, R253: what a step is for every event but a bus cycle or a frame (command or response)
that decodes, which is StepRunsDecodedInstruction's, in a run that is not faulted (R232: ReadRuleAndFaultedRuns); with no agent scheduled the state stays, which is not a fault. The agenda itself,
how bytes are lost and flushed, and what undecodable frames do, are the model's choices (log entries 3, 12 and 16). -/
def Obligations.StepOfTheOtherAgents : Prop :=
  ∀ (s : State) (rest : List Event), s.faulted = none →
    let s' := { s with agenda := rest }
    (s.agenda = [] → step s = .next s) ∧
    (∀ o, s.agenda = .linkTx o :: rest → step s = .next (linkTxStep o s')) ∧
    (∀ o, s.agenda = .linkRx o :: rest → step s = .next (linkRxStep o s')) ∧
    (∀ bs, s.agenda = .sensor bs :: rest →
      step s = .next { s' with link := { s.link with incoming := s.link.incoming ++ bs } }) ∧
    (∀ i, s.agenda = .lose i :: rest →
      step s = .next { s' with link := { s.link with incoming := s.link.incoming.eraseIdx i } }) ∧
    (s.agenda = .flush :: rest → step s = .next { s' with link := { s.link with incoming := [] } }) ∧
    (s.agenda = .resetInput :: rest → step s = .next { s' with blk := Block.reset s.cfg }) ∧
    (∀ a v e, s.agenda = .fetch (.hostWrite a v) :: rest → decode s.cfg (.hostWrite a v) = .error e →
      step s = .fault .reservedOpcode) ∧
    (∀ bs e, s.agenda = .fetch (.rspFrame bs) :: rest → decode s.cfg (.rspFrame bs) = .error e →
      step s = .next (arrive bs s')) ∧
    (∀ bs e, s.agenda = .fetch (.cmdFrame bs) :: rest → decode s.cfg (.cmdFrame bs) = .error e →
      step s = .refused (.notACommand e))

/-- R253, R250, R41: while an operation is in progress, an instruction of the host that completes is a register read,
which changes no register, or RESET, which ends it; every other one faults. (Response frames are the sensor's and the
link's moves, not the host's.) -/
def Obligations.OnlyResetEndsABusyOperation : Prop :=
  ∀ (i : Instr) (s : State), s.blk.status.busy = true → isResponse i = false → i ≠ .reset →
    i.wellFormed = true →
    (∀ t, exec i s = .next t → (∃ a, i = .rd a) ∧ t.blk = s.blk ∧ t.link = s.link) ∧
    ((∃ a, i = .rd a) ∨ ∃ r, exec i s = .fault r)

/-- R253: a stuck operation (one in progress and no agent scheduled) stays as it is for every number of steps, with no
fault; the host still reads STATUS with BUSY set, and RESET ends it. That no scheduled agent means an empty agenda is the
model's choice (log entry 3). -/
def Obligations.StuckOperationWaitsForReset : Prop :=
  ∀ s : State, s.isStuck →
    (∀ n, Host.Core.run Sys2Proof.core n s = .next s) ∧
    (∃ t v, exec (.rd 0x01) s = .next t ∧ t.blk = s.blk ∧ t.port.rdData = some v ∧ v.getLsbD 4 = true) ∧
    (∃ t, exec .reset s = .next t ∧ t.blk.status.busy = false ∧ t.blk.phase = .idle)

/-- R231, R253: only a host action stops the machine. With no bus cycle and no command frame among the events to come, a
run of any length, from any state that is not marked as faulted, ends in a next state, not marked either. -/
def Obligations.OnlyHostActionsStopTheMachine : Prop :=
  ∀ (s : State) (n : Nat), s.faulted = none → (∀ e ∈ s.agenda, isHostAction e = false) → SafeRun n s

/-- R28, R64: TXBUF is changed by ENCODE, XCHG (also as part of a command frame) and RESET only; in particular no
register write and no link step changes it. -/
def Obligations.OnlyEncodeRebuildsTxBuf : Prop :=
  (∀ (i : Instr) (s t : State), exec i s = .next t → i.wellFormed = true → t.blk.txBuf ≠ s.blk.txBuf →
    i = .encode ∨ i = .xchg ∨ i = .reset ∨ ∃ bs, encode s.cfg i = .cmdFrame bs ∧ t.blk.txBuf = bs) ∧
  (∀ (o : WriteOutcome) (s : State), (linkTxStep o s).blk.txBuf = s.blk.txBuf) ∧
  (∀ (o : ReadOutcome) (s : State), (linkRxStep o s).blk.txBuf = s.blk.txBuf)

/-- R157, R151, R155, R159: the host is handed a typed result only by a reception that ended with OK, so with the type it
expected, and it is that frame's: a Measurement, with the frame's numbers, only where TYPE_DATA was expected; an
acknowledgement or the frame's date only where TYPE_REPLY was, with a known sub-command. That the frame then has the four
payload bytes these rules name, at other lengths too, is the model's choice (log entry 24). -/
def Obligations.TypedResultOnlyAfterOk : Prop :=
  ∀ (o : ReadOutcome) (s : State) (y : Typed), s.blk.phase = .rx → (linkRxStep o s).blk.phase = .idle →
    (linkRxStep o s).port.typed = some y →
    (linkRxStep o s).blk.status.result = .ok ∧
    ∃ f, (linkRxStep o s).blk.rxFrame = some f ∧ f.type = s.blk.expType ∧ 4 ≤ f.pl.length ∧
      let b := fun i => f.pl.getD i 0
      let dev := devId s.cfg.devIdOrder f.id0 f.id1
      ((f.type = s.cfg.typeData ∧ y = .measurement (le16 (b 0) (b 1)) (le16 (b 2) (b 3)) dev) ∨
       (f.type = s.cfg.typeReply ∧ f.type ≠ s.cfg.typeData ∧
        (b 0 = 0x02 ∨ b 0 = 0x06 ∨ b 0 = 0x07 ∨ b 0 = 0x08) ∧
        (y = .ack ∨ (b 0 = 0x07 ∧ y = .deviceInfo (b 1) (b 2) (b 3) dev))))

/-! ## Command frames -/

/-- R130 to R137, R78, R82, R138: each of the seven command frames, from an idle block: its bytes in TXBUF, the expected
type of its reply, transmission started, and every other register, the link and the host port left as they are. That the
frame's ID bytes are loaded into TXID0 and TXID1 is the model's choice (log entry 7). The zero bytes of the payload are
as many as the frame has room for (ten in R73's frame of 19 bytes). -/
def Obligations.CommandFramesStartTheirExchange : Prop :=
  ∀ (s : State) (n id0 id1 : Byte), s.blk.status.busy = false → 9 ≤ s.cfg.nCmd →
    ∀ p ∈ [(Instr.setReportingQuery id0 id1, (0x02 : Byte), (0x01 : Byte), (0x01 : Byte), s.cfg.typeReply),
           (Instr.setReportingActive id0 id1, 0x02, 0x01, 0x00, s.cfg.typeReply),
           (Instr.setSleep id0 id1, 0x06, 0x01, 0x00, s.cfg.typeReply),
           (Instr.setWork id0 id1, 0x06, 0x01, 0x01, s.cfg.typeReply),
           (Instr.setWorkingPeriod n id0 id1, 0x08, 0x01, n, s.cfg.typeReply),
           (Instr.queryFirmware id0 id1, 0x07, 0x00, 0x00, s.cfg.typeReply),
           (Instr.queryData id0 id1, 0x04, 0x00, 0x00, s.cfg.typeData)],
      ∃ t, exec p.1 s = .next t ∧
        t.blk.txBuf = [s.cfg.head, s.cfg.typeCmd, p.2.1, p.2.2.1, p.2.2.2.1] ++ List.replicate (s.cfg.nCmd - 9) 0 ++
          [id0, id1, p.2.1 + p.2.2.1 + p.2.2.2.1 + id0 + id1, s.cfg.tail] ∧
        encode s.cfg p.1 = .cmdFrame t.blk.txBuf ∧
        t = { s with blk := {
          phase := .tx
          status := { result := .none, busy := true, txValid := true, rxValid := false, chain := true }
          txType := s.cfg.typeCmd
          expType := p.2.2.2.2
          txId0 := id0
          txId1 := id1
          txPl := [p.2.1, p.2.2.1, p.2.2.2.1] ++ List.replicate (s.cfg.nCmd - 9) 0
          txBuf := t.blk.txBuf
          txPtr := 0
          rxBuf := []
          rxCnt := 0
          rxFrame := none
          terr := none } }

/-- R41, R82: a command frame while an operation is in progress faults with Busy. -/
def Obligations.CommandFramesWhileBusyFault : Prop :=
  ∀ (s : State) (n id0 id1 : Byte), s.blk.status.busy = true →
    ∀ i ∈ [Instr.setReportingQuery id0 id1, .setReportingActive id0 id1, .setSleep id0 id1, .setWork id0 id1,
           .setWorkingPeriod n id0 id1, .queryFirmware id0 id1, .queryData id0 id1],
      exec i s = .fault .busy

/-- R82: LOADPL of up to 13 bytes on an idle block writes them to TXPL, the rest as 0x00, and nothing else (frames of 19
bytes, so 13 registers). -/
def Obligations.LoadPayloadExpansion : Prop :=
  ∀ (s : State) (bytes : List Byte), s.faulted = none → s.blk.status.busy = false → s.cfg.nCmd = 19 → s.blk.txPl.length = 13 →
    bytes.length ≤ 13 →
    ∃ t, runInstrs (loadPl s.cfg bytes) s = .next t ∧
      t.blk.txPl = bytes ++ List.replicate (13 - bytes.length) 0 ∧
      t = { s with blk := { s.blk with txPl := t.blk.txPl } }

/-- R82, R83: a command frame executed in one step is the host's own instructions one by one: the two ID writes, then CMD's
expansion up to its WAIT reach the same state, and the whole CMD as a host program is that step and then the WAIT. That
the ID writes come first, and that no other agent moves between the writes, are the model's choices (log entries 7 and
18). -/
def Obligations.CommandFrameIsItsExpansion : Prop :=
  ∀ (s : State) (n id0 id1 : Byte), s.faulted = none → s.blk.status.busy = false → s.cfg.nCmd = 19 → s.blk.txPl.length = 13 →
    ∀ p ∈ [(Instr.setReportingQuery id0 id1, CommandName.setReportingQuery),
           (Instr.setReportingActive id0 id1, .setReportingActive),
           (Instr.setSleep id0 id1, .setSleep),
           (Instr.setWork id0 id1, .setWork),
           (Instr.setWorkingPeriod n id0 id1, .setWorkingPeriod n),
           (Instr.queryFirmware id0 id1, .queryFirmware),
           (Instr.queryData id0 id1, .queryData)],
      runInstrs ([.wr 0x05 id0, .wr 0x06 id1] ++ cmdInstrs s.cfg p.2) s = exec p.1 s ∧
      ∀ fuel, runLines fuel [] ([.instr (.wr 0x05 id0), .instr (.wr 0x06 id1)] ++ cmdLines s.cfg p.2) s =
        (HostRun.ofResult (exec p.1 s)).andThen (runWait fuel)

/-- R82: LISTEN as a host program, on an idle block, is a reception with a measurement expected and then the WAIT (no other
agent moving between the first two lines, log entry 18). WAIT on an idle block is one read of STATUS; it ends only with
BUSY = 0; on a stuck operation it waits, however often it polls, and nothing after it runs. -/
def Obligations.ListenAndWaitExpansions : Prop :=
  (∀ (s : State) (fuel : Nat), s.faulted = none → s.blk.status.busy = false →
    runLines fuel [] (listenLines s.cfg) s = runWait fuel { s with blk := { s.blk with
      phase := .rx
      expType := s.cfg.typeData
      rxBuf := []
      rxCnt := 0
      rxFrame := none
      terr := none
      status := { s.blk.status with result := .none, busy := true, rxValid := false, chain := false } } }) ∧
  (∀ (s : State) (fuel : Nat), s.faulted = none → s.blk.status.busy = false →
    runWait (fuel + 1) s = .finished { s with port := { s.port with rdData := some s.blk.status.toByte } }) ∧
  (∀ (s t : State) (fuel : Nat), runWait fuel s = .finished t → t.blk.status.busy = false ∧ t.faulted = none) ∧
  (∀ (s : State) (fuel : Nat) (ls : List HostLine), s.isStuck →
    ∃ t, runLines fuel [] (.wait :: ls) s = .waiting t ∧ t.blk = s.blk ∧ t.link = s.link ∧ t.agenda = [])

/-! ## Response frames -/

/-- R151, R150, R184: a DATA_REPORT with a right checksum, arriving at a reception that has no byte yet while nothing else
waits in `S` and a measurement is expected, is accepted: the field registers, the verdict, and the Measurement, its
numbers little-endian and its ID by DEVID_ORDER. Everything else stays. -/
def Obligations.DataReportAccepted : Prop :=
  ∀ (s : State) (p0 p1 p2 p3 id0 id1 cs : Byte),
    s.cfg.nRsp = 10 → s.blk.phase = .rx → s.blk.rxCnt = 0 → s.blk.rxBuf = [] → s.link.incoming = [] →
    s.blk.expType = s.cfg.typeData → cs = p0 + p1 + p2 + p3 + id0 + id1 →
    ∃ pm25 pm10 dev : Half,
      exec (.dataReport p0 p1 p2 p3 id0 id1 cs) s = .next { s with
        blk := { s.blk with
          phase := .idle
          rxBuf := [s.cfg.head, s.cfg.typeData, p0, p1, p2, p3, id0, id1, cs, s.cfg.tail]
          rxCnt := 10
          rxFrame := some { type := s.cfg.typeData, pl := [p0, p1, p2, p3], id0 := id0, id1 := id1 }
          status := { s.blk.status with result := .ok, busy := false, rxValid := true } }
        port := { s.port with typed := some (.measurement pm25 pm10 dev) } } ∧
      pm25.toNat = p0.toNat + 256 * p1.toNat ∧ pm10.toNat = p2.toNat + 256 * p3.toNat ∧
      (s.cfg.devIdOrder = .be → dev.toNat = 256 * id0.toNat + id1.toNat) ∧
      (s.cfg.devIdOrder = .le → dev.toNat = id0.toNat + 256 * id1.toNat)

/-- R152 to R155, R158: the four reply frames, likewise accepted where a reply is expected, whatever the echoed bytes are
and whichever command was sent. The typed result is an acknowledgement; but REPLY_FIRMWARE gives the firmware date with the
device ID, unless it answers a set command (R131 to R135), which any reply acknowledges. That the command answered is the frame last
transmitted whole, until a reply is accepted, is the model's choice (log entry 10). -/
def Obligations.RepliesAccepted : Prop :=
  ∀ (s : State) (a b d id0 id1 cs : Byte),
    s.cfg.nRsp = 10 → s.blk.phase = .rx → s.blk.rxCnt = 0 → s.blk.rxBuf = [] → s.link.incoming = [] →
    s.blk.expType = s.cfg.typeReply → s.cfg.typeData ≠ s.cfg.typeReply →
    let toSet := ∃ bs, s.port.command = some bs ∧ bs[1]? = some s.cfg.typeCmd ∧ bs[3]? = some 0x01 ∧
      (bs[2]? = some 0x02 ∨ bs[2]? = some 0x06 ∨ bs[2]? = some 0x08)
    ∀ p ∈ [(Instr.replyReportingMode a b d id0 id1 cs, (0x02 : Byte), Typed.ack),
           (Instr.replyDeviceMode a b d id0 id1 cs, 0x06, Typed.ack),
           (Instr.replyWorkingPeriod a b d id0 id1 cs, 0x08, Typed.ack),
           (Instr.replyFirmware a b d id0 id1 cs, 0x07,
             Typed.deviceInfo a b d (devId s.cfg.devIdOrder id0 id1))],
      cs = p.2.1 + a + b + d + id0 + id1 →
      let t := fun y : Typed => { s with
        blk := { s.blk with
          phase := .idle
          rxBuf := [s.cfg.head, s.cfg.typeReply, p.2.1, a, b, d, id0, id1, cs, s.cfg.tail]
          rxCnt := 10
          rxFrame := some { type := s.cfg.typeReply, pl := [p.2.1, a, b, d], id0 := id0, id1 := id1 }
          status := { s.blk.status with result := .ok, busy := false, rxValid := true } }
        port := { s.port with typed := some y, command := none } }
      (toSet → exec p.1 s = .next (t .ack)) ∧ (¬ toSet → exec p.1 s = .next (t p.2.2))

/-- R104, R110, R213, R214, for all five response frames at such a reception: a wrong checksum byte is CHECKSUM_MISMATCH
with no field written; a right one with another expected type is UNEXPECTED_RESPONSE with the fields written. Neither
gives a typed result. -/
def Obligations.ResponsesRejected : Prop :=
  ∀ (s : State) (p0 a b d id0 id1 cs : Byte),
    s.cfg.nRsp = 10 → s.blk.phase = .rx → s.blk.rxCnt = 0 → s.blk.rxBuf = [] → s.link.incoming = [] →
    ∀ p ∈ [(Instr.dataReport p0 a b d id0 id1 cs, s.cfg.typeData, p0),
           (Instr.replyReportingMode a b d id0 id1 cs, s.cfg.typeReply, (0x02 : Byte)),
           (Instr.replyDeviceMode a b d id0 id1 cs, s.cfg.typeReply, 0x06),
           (Instr.replyWorkingPeriod a b d id0 id1 cs, s.cfg.typeReply, 0x08),
           (Instr.replyFirmware a b d id0 id1 cs, s.cfg.typeReply, 0x07)],
      let window := [s.cfg.head, p.2.1, p.2.2, a, b, d, id0, id1, cs, s.cfg.tail]
      (cs ≠ p.2.2 + a + b + d + id0 + id1 →
        exec p.1 s = .next { s with
          blk := { s.blk with
            phase := .idle, rxBuf := window, rxCnt := 10
            status := { s.blk.status with result := .checksumMismatch, busy := false } }
          port := { s.port with typed := none } }) ∧
      (cs = p.2.2 + a + b + d + id0 + id1 → s.blk.expType ≠ p.2.1 →
        exec p.1 s = .next { s with
          blk := { s.blk with
            phase := .idle, rxBuf := window, rxCnt := 10
            rxFrame := some { type := p.2.1, pl := [p.2.2, a, b, d], id0 := id0, id1 := id1 }
            status := { s.blk.status with result := .unexpectedResponse, busy := false, rxValid := true } }
          port := { s.port with typed := none } })

/-- R66, R194: a response frame that arrives while no reception is in progress only lengthens `S`. -/
def Obligations.UnsolicitedFramesWaitInTheStream : Prop :=
  ∀ (s : State) (i : Instr) (bs : List Byte), s.blk.phase ≠ .rx → encode s.cfg i = .rspFrame bs →
    bs.length = 10 ∧ exec i s = .next { s with link := { s.link with incoming := s.link.incoming ++ bs } }

/-- R18, R183: a response frame executed in one step is two steps of the agents: SENSOR appends its bytes, and LINK_RX
delivers as many bytes as the reception still needs and `S` then holds (log entry 8). -/
def Obligations.ResponseIsSensorThenLink : Prop :=
  ∀ (s : State) (i : Instr) (bs : List Byte), s.faulted = none → s.blk.phase = .rx → s.blk.rxCnt < s.cfg.nRsp →
    encode s.cfg i = .rspFrame bs →
    let k := min (s.cfg.nRsp - s.blk.rxCnt) (s.link.incoming.length + bs.length)
    let s' := { s with agenda := .sensor bs :: .linkRx (.delivered k) :: s.agenda }
    Host.Core.run Sys2Proof.core 2 s' = exec i s

/-- R159: a reply with an unknown sub-command passes the block's checks when a reply is expected, but has no typed
result, whichever command it answers (that this holds against R158 for a set command is log entry 10). -/
def Obligations.UnknownReplyHasNoTypedResult : Prop :=
  ∀ (s : State) (p0 p1 p2 p3 id0 id1 : Byte),
    s.cfg.nRsp = 10 → s.blk.phase = .rx → s.blk.rxCnt = 0 → s.blk.rxBuf = [] → s.cfg.typeData ≠ s.cfg.typeReply →
    s.blk.expType = s.cfg.typeReply → p0 ≠ 0x02 → p0 ≠ 0x06 → p0 ≠ 0x07 → p0 ≠ 0x08 →
    s.link.incoming = encodeFrame s.cfg s.cfg.typeReply [p0, p1, p2, p3] id0 id1 →
    let t := linkRxStep (.delivered 10) s
    t.blk.status.result = .ok ∧ t.blk.status.rxValid = true ∧ t.port.typed = none

/-! ## Transport error values -/

/-- R5, R32, 92 D21: a transport error value is opaque. Renaming every error in a state, whichever way, and then stepping
is stepping and then renaming, with the same fault or refusal where there is one; so no register read, branch or stop
depends on which error it was. -/
def Obligations.TransportErrorIsOpaque : Prop :=
  ∀ (f : TErr → TErr) (s : State), step (s.mapErr f) = mapErrResult f (step s)

/-! ## A command and its reply -/

/-- R155, R158, with R174: from an idle block, a command frame, its bytes accepted in chunks of any sizes, and then a
REPLY_FIRMWARE with a right checksum: accepted, as an acknowledgement of any of the set commands and as the firmware date
for QUERY_FIRMWARE. Log entries 7, 8 and 10 say which of this is the model's choice. -/
def Obligations.ReplyIsDecodedByTheCommandSent : Prop :=
  ∀ (s : State) (n id0 id1 a b d r0 r1 cs : Byte) (ks : List Nat),
    s.blk.status.busy = false → 9 ≤ s.cfg.nCmd → s.cfg.nRsp = 10 → s.link.incoming = [] →
    s.cfg.typeData ≠ s.cfg.typeReply → (∀ k ∈ ks, 1 ≤ k) → ks.sum = s.cfg.nCmd →
    cs = 0x07 + a + b + d + r0 + r1 →
    ∀ p ∈ [(Instr.setReportingQuery id0 id1, Typed.ack),
           (Instr.setReportingActive id0 id1, .ack),
           (Instr.setSleep id0 id1, .ack),
           (Instr.setWork id0 id1, .ack),
           (Instr.setWorkingPeriod n id0 id1, .ack),
           (Instr.queryFirmware id0 id1, .deviceInfo a b d (devId s.cfg.devIdOrder r0 r1))],
      ∃ t u, exec p.1 s = .next t ∧ exec (.replyFirmware a b d r0 r1 cs) (runTx ks t) = .next u ∧
        u.blk.status.result = .ok ∧ u.blk.phase = .idle ∧ u.port.typed = some p.2 ∧ u.port.command = none

/-! ## The host's read rule, and faulted runs -/

/-- R256, its first two sentences, with R41, R52, R176, and R232. An instruction that keeps the host's read rule puts no mark
on the run. A read that breaks it faults with NoValue where the register holds no value; where it holds one, which is a
field register while an operation is in progress, the read returns the value, and marks the run as faulted with NoValue.
That both hold of this last read is the model's reading of rules that disagree (log entry 22). A marked run does not go on
and is never a safe run, and no instruction and no step clears the mark. -/
def Obligations.ReadRuleAndFaultedRuns : Prop :=
  (∀ (i : Instr) (s : State),
    (keepsReadRule i s = true → ∀ t, exec i s = .next t → t.faulted = s.faulted) ∧
    (keepsReadRule i s = false → s.Inv →
      (exec i s = .fault .noValue ∧
        (s.blk.status.rxValid = false ∨ i = .rd 0x09 ∧ s.blk.status.result ≠ .transportError)) ∨
      s.blk.status.rxValid = true ∧ s.blk.status.busy = true ∧
        ∃ a r v, i = .rd a ∧ regAt s.cfg a = some r ∧ r.isField = true ∧ readReg r s.blk = some v ∧
          exec i s = .next { s with port := { s.port with rdData := some v }, faulted := some .noValue })) ∧
  (∀ (s : State) (r : Fault), s.faulted = some r →
    step s = .fault r ∧ (∀ n, ¬ SafeRun n s) ∧ ∀ i, hostExec i s = .fault r) ∧
  (∀ (i : Instr) (s t : State), exec i s = .next t → t.faulted = none → s.faulted = none) ∧
  (∀ s t : State, step s = .next t → t.faulted = none → s.faulted = none)
end

