-- ==== Sys2Proof/Laws/State.lean ====
section
/-! SUPPORT. What each shared update does to each field, true by unfolding once; later proofs cite these. -/

namespace Sys2Proof.Machine

section Finish
variable (code : ResultCode) (b : Block)
@[simp] theorem finish_phase : (finish code b).phase = .idle := rfl
@[simp] theorem finish_result : (finish code b).status.result = code := rfl
@[simp] theorem finish_busy : (finish code b).status.busy = false := rfl
@[simp] theorem finish_txValid : (finish code b).status.txValid = b.status.txValid := rfl
@[simp] theorem finish_rxValid : (finish code b).status.rxValid = b.status.rxValid := rfl
@[simp] theorem finish_chain : (finish code b).status.chain = b.status.chain := rfl
@[simp] theorem finish_txType : (finish code b).txType = b.txType := rfl
@[simp] theorem finish_expType : (finish code b).expType = b.expType := rfl
@[simp] theorem finish_txId0 : (finish code b).txId0 = b.txId0 := rfl
@[simp] theorem finish_txId1 : (finish code b).txId1 = b.txId1 := rfl
@[simp] theorem finish_txPl : (finish code b).txPl = b.txPl := rfl
@[simp] theorem finish_txBuf : (finish code b).txBuf = b.txBuf := rfl
@[simp] theorem finish_txPtr : (finish code b).txPtr = b.txPtr := rfl
@[simp] theorem finish_rxBuf : (finish code b).rxBuf = b.rxBuf := rfl
@[simp] theorem finish_rxCnt : (finish code b).rxCnt = b.rxCnt := rfl
@[simp] theorem finish_rxFrame : (finish code b).rxFrame = b.rxFrame := rfl
@[simp] theorem finish_terr : (finish code b).terr = b.terr := rfl
end Finish

section Begin
variable (ph : Phase) (ch : Bool) (b : Block)
@[simp] theorem begin_phase : (begin ph ch b).phase = ph := rfl
@[simp] theorem begin_result : (begin ph ch b).status.result = .none := rfl
@[simp] theorem begin_busy : (begin ph ch b).status.busy = true := rfl
@[simp] theorem begin_txValid : (begin ph ch b).status.txValid = b.status.txValid := rfl
@[simp] theorem begin_rxValid : (begin ph ch b).status.rxValid = b.status.rxValid := rfl
@[simp] theorem begin_chain : (begin ph ch b).status.chain = ch := rfl
@[simp] theorem begin_txType : (begin ph ch b).txType = b.txType := rfl
@[simp] theorem begin_expType : (begin ph ch b).expType = b.expType := rfl
@[simp] theorem begin_txId0 : (begin ph ch b).txId0 = b.txId0 := rfl
@[simp] theorem begin_txId1 : (begin ph ch b).txId1 = b.txId1 := rfl
@[simp] theorem begin_txPl : (begin ph ch b).txPl = b.txPl := rfl
@[simp] theorem begin_txBuf : (begin ph ch b).txBuf = b.txBuf := rfl
@[simp] theorem begin_txPtr : (begin ph ch b).txPtr = b.txPtr := rfl
@[simp] theorem begin_rxBuf : (begin ph ch b).rxBuf = b.rxBuf := rfl
@[simp] theorem begin_rxCnt : (begin ph ch b).rxCnt = b.rxCnt := rfl
@[simp] theorem begin_rxFrame : (begin ph ch b).rxFrame = b.rxFrame := rfl
@[simp] theorem begin_terr : (begin ph ch b).terr = none := rfl
end Begin

section LoadTxBuf
variable (c : Config) (b : Block)
@[simp] theorem loadTxBuf_txBuf :
    (loadTxBuf c b).txBuf = encodeFrame c b.txType b.txPl b.txId0 b.txId1 := rfl
@[simp] theorem loadTxBuf_txPtr : (loadTxBuf c b).txPtr = 0 := rfl
@[simp] theorem loadTxBuf_status :
    (loadTxBuf c b).status = { b.status with txValid := true } := rfl
@[simp] theorem loadTxBuf_phase : (loadTxBuf c b).phase = b.phase := rfl
@[simp] theorem loadTxBuf_txType : (loadTxBuf c b).txType = b.txType := rfl
@[simp] theorem loadTxBuf_txId0 : (loadTxBuf c b).txId0 = b.txId0 := rfl
@[simp] theorem loadTxBuf_txId1 : (loadTxBuf c b).txId1 = b.txId1 := rfl
@[simp] theorem loadTxBuf_txPl : (loadTxBuf c b).txPl = b.txPl := rfl
@[simp] theorem loadTxBuf_expType : (loadTxBuf c b).expType = b.expType := rfl
@[simp] theorem loadTxBuf_rxBuf : (loadTxBuf c b).rxBuf = b.rxBuf := rfl
@[simp] theorem loadTxBuf_rxCnt : (loadTxBuf c b).rxCnt = b.rxCnt := rfl
@[simp] theorem loadTxBuf_rxFrame : (loadTxBuf c b).rxFrame = b.rxFrame := rfl
@[simp] theorem loadTxBuf_terr : (loadTxBuf c b).terr = b.terr := rfl
end LoadTxBuf

section ClearRx
variable (b : Block)
@[simp] theorem clearRx_rxBuf : (clearRx b).rxBuf = [] := rfl
@[simp] theorem clearRx_rxCnt : (clearRx b).rxCnt = 0 := rfl
@[simp] theorem clearRx_rxFrame : (clearRx b).rxFrame = none := rfl
@[simp] theorem clearRx_status : (clearRx b).status = { b.status with rxValid := false } := rfl
@[simp] theorem clearRx_phase : (clearRx b).phase = b.phase := rfl
@[simp] theorem clearRx_txType : (clearRx b).txType = b.txType := rfl
@[simp] theorem clearRx_expType : (clearRx b).expType = b.expType := rfl
@[simp] theorem clearRx_txId0 : (clearRx b).txId0 = b.txId0 := rfl
@[simp] theorem clearRx_txId1 : (clearRx b).txId1 = b.txId1 := rfl
@[simp] theorem clearRx_txPl : (clearRx b).txPl = b.txPl := rfl
@[simp] theorem clearRx_txBuf : (clearRx b).txBuf = b.txBuf := rfl
@[simp] theorem clearRx_txPtr : (clearRx b).txPtr = b.txPtr := rfl
@[simp] theorem clearRx_terr : (clearRx b).terr = b.terr := rfl
end ClearRx

section Whole
variable (s : State)
@[simp] theorem resetBlock_blk : (resetBlock s).blk = Block.reset s.cfg := rfl
@[simp] theorem resetBlock_cfg : (resetBlock s).cfg = s.cfg := rfl
@[simp] theorem resetBlock_link : (resetBlock s).link = s.link := rfl
@[simp] theorem resetBlock_port : (resetBlock s).port = s.port := rfl
@[simp] theorem resetBlock_agenda : (resetBlock s).agenda = s.agenda := rfl

@[simp] theorem sensorAppend_blk (bs : List Byte) : (sensorAppend bs s).blk = s.blk := rfl
@[simp] theorem sensorAppend_cfg (bs : List Byte) : (sensorAppend bs s).cfg = s.cfg := rfl
@[simp] theorem sensorAppend_port (bs : List Byte) : (sensorAppend bs s).port = s.port := rfl
@[simp] theorem sensorAppend_agenda (bs : List Byte) : (sensorAppend bs s).agenda = s.agenda := rfl
@[simp] theorem sensorAppend_incoming (bs : List Byte) :
    (sensorAppend bs s).link.incoming = s.link.incoming ++ bs := rfl
@[simp] theorem sensorAppend_outgoing (bs : List Byte) :
    (sensorAppend bs s).link.outgoing = s.link.outgoing := rfl

@[simp] theorem afterRx_blk (b : Block) : (afterRx b s).blk = b := rfl
@[simp] theorem afterRx_cfg (b : Block) : (afterRx b s).cfg = s.cfg := rfl
@[simp] theorem afterRx_link (b : Block) : (afterRx b s).link = s.link := rfl
@[simp] theorem afterRx_agenda (b : Block) : (afterRx b s).agenda = s.agenda := rfl
@[simp] theorem afterTx_rdData (c : Config) (k : Nat) (b : Block) (p : HostPort) : (afterTx c k b p).rdData = p.rdData := by
  unfold afterTx; split <;> rfl
@[simp] theorem afterTx_typed (c : Config) (k : Nat) (b : Block) (p : HostPort) : (afterTx c k b p).typed = p.typed := by
  unfold afterTx; split <;> rfl
@[simp] theorem afterRx_rdData (b : Block) : (afterRx b s).port.rdData = s.port.rdData := rfl
end Whole

section HostRun
variable (k : State → HostRun) (s : State)
@[simp] theorem andThen_finished : (HostRun.finished s).andThen k = k s := rfl
@[simp] theorem andThen_waiting : (HostRun.waiting s).andThen k = .waiting s := rfl
@[simp] theorem andThen_fault (r : Fault) : (HostRun.fault r).andThen k = .fault r := rfl
@[simp] theorem andThen_refused (r : Refusal) : (HostRun.refused r).andThen k = .refused r := rfl
@[simp] theorem ofResult_next : HostRun.ofResult (.next s) = .finished s := rfl
end HostRun

section MapErr
variable (f : TErr → TErr) (s : State)
@[simp] theorem mapErr_cfg : (s.mapErr f).cfg = s.cfg := rfl
@[simp] theorem mapErr_link : (s.mapErr f).link = s.link := rfl
@[simp] theorem mapErr_port : (s.mapErr f).port = s.port := rfl
@[simp] theorem mapErr_phase : (s.mapErr f).blk.phase = s.blk.phase := rfl
@[simp] theorem mapErr_status : (s.mapErr f).blk.status = s.blk.status := rfl
@[simp] theorem mapErr_faulted : (s.mapErr f).faulted = s.faulted := rfl
@[simp] theorem mapErr_agenda : (s.mapErr f).agenda = s.agenda.map (Event.mapErr f) := rfl
@[simp] theorem mapErr_toByte (w : TErrKind) : (w.mapErr f).toByte = w.toByte := by cases w <;> rfl
end MapErr

section MarkRead
variable (r : Reg) (s : State)
@[simp] theorem markRead_cfg : (markRead r s).cfg = s.cfg := by unfold markRead; split <;> rfl
@[simp] theorem markRead_blk : (markRead r s).blk = s.blk := by unfold markRead; split <;> rfl
@[simp] theorem markRead_link : (markRead r s).link = s.link := by unfold markRead; split <;> rfl
@[simp] theorem markRead_port : (markRead r s).port = s.port := by unfold markRead; split <;> rfl
@[simp] theorem markRead_agenda : (markRead r s).agenda = s.agenda := by unfold markRead; split <;> rfl
/-- Everything a read can do to the mark. -/
theorem markRead_cases :
    (markRead r s = s ∧ (r.isField = false ∨ s.blk.status.busy = false)) ∨
    (markRead r s = { s with faulted := some .noValue } ∧ r.isField = true ∧ s.blk.status.busy = true) := by
  unfold markRead
  cases r.isField <;> cases s.blk.status.busy <;> simp
end MarkRead

end Sys2Proof.Machine
end

