-- ==== Sys2Proof/Laws/Ops.lean ====
section
/-! SUPPORT. One law per shared operation: everything it can answer. -/

namespace Sys2Proof

/-- The bytes of a frame, with nothing left to unfold (R101). -/
theorem encodeFrame_eq (c : Config) (t : Byte) (pl : List Byte) (id0 id1 : Byte) :
    encodeFrame c t pl id0 id1 =
      c.head :: t :: (pl ++ [id0, id1] ++ [low8 (byteSum (pl ++ [id0, id1])), c.tail]) := rfl

@[simp] theorem encodeFrame_length (c : Config) (t : Byte) (pl : List Byte) (id0 id1 : Byte) :
    (encodeFrame c t pl id0 id1).length = pl.length + 6 := by
  simp [encodeFrame]

@[simp] theorem commandPayload_length (c : Config) (sub rw arg : Byte) :
    (commandPayload c sub rw arg).length = c.pCmd - 3 + 3 := by
  simp [commandPayload]

@[simp] theorem byteSum_append (xs ys : List Byte) : byteSum (xs ++ ys) = byteSum xs + byteSum ys := by
  induction xs with
  | nil => simp [byteSum]
  | cons x xs ih => simp [byteSum, ih, Nat.add_assoc]

/-- The errors `Decode_L` can give are the four structural codes (R102). -/
theorem decodeFrame_error {c : Config} {L : Nat} {b : List Byte} {e : ResultCode}
    (h : decodeFrame c L b = .error e) :
    e = .invalidLength ∨ e = .invalidHead ∨ e = .invalidTail ∨ e = .checksumMismatch := by
  unfold decodeFrame at h
  split at h
  · simp_all
  · split at h
    · simp_all
    · split at h
      · simp_all
      · split at h
        · simp_all
        · cases h

namespace Machine

/-- Bit 4 of `STATUS` is `BUSY` (R25). -/
theorem Status.busy_of_toByte (st : Status) : st.toByte.getLsbD 4 = st.busy := by
  obtain ⟨r, b, t, v, c⟩ := st
  cases r <;> cases b <;> cases t <;> cases v <;> cases c <;> rfl

/-- `whenIdle` answers a next state exactly when the block is idle and the guarded operation does. -/
theorem whenIdle_next {s t : State} {o : Result} :
    whenIdle s o = .next t ↔ s.blk.status.busy = false ∧ o = .next t := by
  unfold whenIdle
  cases s.blk.status.busy <;> simp

theorem whenIdle_idle {s : State} (o : Result) (h : s.blk.status.busy = false) : whenIdle s o = o := by
  simp [whenIdle, h]

theorem whenIdle_busy {s : State} (o : Result) (h : s.blk.status.busy = true) : whenIdle s o = .fault .busy := by
  simp [whenIdle, h]

/-- A read answers the register's byte on the port and changes nothing else (R52). -/
theorem execRd_next {a : Byte} {s t : State} (h : execRd a s = .next t) :
    ∃ r v, regAt s.cfg a = some r ∧ readReg r s.blk = some v ∧
      t = markRead r { s with port := { s.port with rdData := some v } } := by
  unfold execRd at h
  split at h
  · cases h
  · rename_i r hr
    split at h
    · cases h
    · rename_i v hv
      cases h
      exact ⟨r, v, hr, hv, rfl⟩

/-- A write to a register other than `CTRL` that completes went to a configuration register of an idle block (R41). -/
theorem execWr_next {a v : Byte} {s t : State} (h : execWr a v s = .next t) (ha : regAt s.cfg a ≠ some .ctrl) :
    ∃ r, regAt s.cfg a = some r ∧ r.isConfig = true ∧ s.blk.status.busy = false ∧
      t = { s with blk := writeReg r v s.blk } := by
  unfold execWr at h
  split at h
  · cases h
  · contradiction
  · rename_i r hr
    split at h
    · rename_i hc
      obtain ⟨hb, ht⟩ := whenIdle_next.mp h
      cases ht
      exact ⟨_, by assumption, hc, hb, rfl⟩
    · cases h

/-- A host's instruction that completes was executed, in a run not faulted so far (R232). -/
theorem hostExec_next {i : Instr} {s t : State} : hostExec i s = .next t ↔ s.faulted = none ∧ exec i s = .next t := by
  unfold hostExec
  cases s.faulted <;> simp

@[simp] theorem hostExec_unfaulted (i : Instr) {s : State} (h : s.faulted = none) : hostExec i s = exec i s := by
  simp [hostExec, h]

/-- A faulted run does not go on (R232). -/
theorem step_faulted {s : State} {r : Fault} (h : s.faulted = some r) : step s = .fault r := by
  simp [step, h]

/-- `WAIT` ends only with `BUSY = 0`, in a run that is not faulted (R82, R232). -/
theorem runWait_finished {fuel : Nat} {s t : State} (h : runWait fuel s = .finished t) :
    t.blk.status.busy = false ∧ t.faulted = none := by
  induction fuel generalizing s with
  | zero => cases h
  | succ n ih =>
    cases hf : s.faulted with
    | some r => simp [runWait, hostExec, hf, HostRun.ofResult, HostRun.andThen] at h
    | none =>
      have hr : exec (.rd 0x01) s = .next { s with port := { s.port with rdData := some s.blk.status.toByte } } := rfl
      simp only [runWait, hostExec_unfaulted _ hf, hr, HostRun.ofResult, HostRun.andThen, Option.getD_some,
        Status.busy_of_toByte] at h
      split at h
      · split at h
        · exact ih h
        all_goals cases h
      · cases h
        exact ⟨by simp_all, hf⟩

/-- Running instructions in sequence. -/
theorem runInstrs_append (is js : List Instr) {s t : State} (h : runInstrs is s = .next t) :
    runInstrs (is ++ js) s = runInstrs js t := by
  induction is generalizing s with
  | nil => cases h; rfl
  | cons i is ih =>
    simp only [runInstrs, List.cons_append] at h ⊢
    split at h
    · rename_i u hu
      simp only [ih h]
    · cases h
    · cases h

end Machine

end Sys2Proof
end

