-- ==== Sys2Proof/Laws/Link.lean ====
section
/-! SUPPORT. One inversion law for each link step: the cases of 43_host_operations.md R180 to R185, and no other. -/

namespace Sys2Proof.Machine

/-- Everything a LINK_TX step can do (R180 to R182). -/
theorem linkTxStep_cases (o : WriteOutcome) (s : State) :
    linkTxStep o s = s ∨
    (s.blk.phase = .tx ∧ ∃ why, linkTxStep o s = { s with blk := txFail why s.blk }) ∨
    (s.blk.phase = .tx ∧ ∃ k, 1 ≤ k ∧ s.blk.txPtr + k ≤ s.cfg.nCmd ∧
      linkTxStep o s = { s with
        blk := txProgress s.cfg k s.blk
        link := { s.link with outgoing := s.link.outgoing ++ (s.blk.txBuf.drop s.blk.txPtr).take k }
        port := afterTx s.cfg k s.blk s.port }) := by
  unfold linkTxStep
  split
  · exact .inr (.inl ⟨by assumption, _, rfl⟩)
  · exact .inr (.inl ⟨by assumption, _, rfl⟩)
  · rename_i k hk hph
    split
    · refine .inr (.inr ⟨by assumption, k, ?_, by assumption, rfl⟩)
      rcases Nat.eq_zero_or_pos k with h0 | h0
      · exact absurd h0 hk
      · exact h0
    · exact .inl rfl
  · exact .inl rfl

/-- Everything a LINK_RX step can do (R183 to R185). -/
theorem linkRxStep_cases (o : ReadOutcome) (s : State) :
    linkRxStep o s = s ∨
    (s.blk.phase = .rx ∧ ∃ why, linkRxStep o s = afterRx (rxFail why s.blk) s) ∨
    (s.blk.phase = .rx ∧ ∃ k, 1 ≤ k ∧ s.blk.rxCnt + k ≤ s.cfg.nRsp ∧ k ≤ s.link.incoming.length ∧
      linkRxStep o s = afterRx (rxProgress s.cfg (s.link.incoming.take k) s.blk)
        { s with link := { s.link with incoming := s.link.incoming.drop k } }) := by
  unfold linkRxStep
  split
  · exact .inr (.inl ⟨by assumption, _, rfl⟩)
  · exact .inr (.inl ⟨by assumption, _, rfl⟩)
  · rename_i k hk hph
    split
    · rename_i h
      refine .inr (.inr ⟨by assumption, k, ?_, h.1, h.2, rfl⟩)
      rcases Nat.eq_zero_or_pos k with h0 | h0
      · exact absurd h0 hk
      · exact h0
    · exact .inl rfl
  · exact .inl rfl

/-- Completion of a reception, by the decoder's verdict (R184). -/
theorem rxComplete_cases (c : Config) (b : Block) :
    (∃ e, decodeFrame c c.nRsp b.rxBuf = .error e ∧ rxComplete c b = finish e b) ∨
    (∃ f, decodeFrame c c.nRsp b.rxBuf = .ok f ∧ rxComplete c b = finish (typeCheck f b.expType)
      { b with rxFrame := some f, status := { b.status with rxValid := true } }) := by
  unfold rxComplete
  split
  · exact .inl ⟨_, by assumption, rfl⟩
  · exact .inr ⟨_, by assumption, rfl⟩

/-- The arrival of bytes is the SENSOR step, with or without one LINK_RX step after it (R18, R35, R183). -/
theorem arrive_cases (bytes : List Byte) (s : State) :
    arrive bytes s = sensorAppend bytes s ∨
    ∃ k, arrive bytes s = linkRxStep (.delivered k) (sensorAppend bytes s) := by
  unfold arrive receiveAvailable
  split
  · exact .inl rfl
  · exact .inr ⟨_, rfl⟩

/-- The meaning of a command frame that completes (R82). -/
theorem runCommand_next {sub rw arg id0 id1 exp : Byte} {s t : State}
    (h : runCommand sub rw arg id0 id1 exp s = .next t) :
    s.blk.status.busy = false ∧
      t = { s with blk := beginXchg s.cfg (loadCommand s.cfg sub rw arg id0 id1 exp s.blk) } := by
  obtain ⟨hb, ht⟩ := whenIdle_next.mp h
  cases ht
  exact ⟨hb, rfl⟩

end Sys2Proof.Machine
end

