-- ==== Sys2Proof/Laws/PerInstr.lean ====
section
/-! SUPPORT. Facts about every instruction as syntax, one lemma per constructor. -/

namespace Sys2Proof.Laws

/-- The encoded form has the format and length of its opcode-table row: a defined opcode written to `CTRL` (R76), a bus
access (R176), `N_CMD` bytes (R73) or the ten bytes of RSP10 (R74). -/
def EncodedFormat.Statement (i : Instr) : Prop :=
  ∀ c : Config, c.legal → match i, encode c i with
  | .rd a, .hostRead a' => a' = a
  | .wr a d, .hostWrite a' d' => a' = a ∧ d' = d
  | .wr _ _, _ => False
  | .rd _, _ => False
  | _, .hostRead _ => False
  | _, .hostWrite a op => a = 0x00 ∧ isOpcode op = true
  | _, .cmdFrame bs => bs.length = c.nCmd
  | _, .rspFrame bs => bs.length = 10

namespace EncodedFormat

/-- A command's frame has `N_CMD` bytes. -/
theorem command_length (c : Config) (h : c.legal) (sub rw arg id0 id1 : Byte) :
    (encodeFrame c c.typeCmd (commandPayload c sub rw arg) id0 id1).length = c.nCmd := by
  have := h.1
  simp [Config.pCmd]
  omega

theorem encode : Statement .encode := fun _ _ => ⟨rfl, rfl⟩
theorem send : Statement .send := fun _ _ => ⟨rfl, rfl⟩
theorem recv : Statement .recv := fun _ _ => ⟨rfl, rfl⟩
theorem xchg : Statement .xchg := fun _ _ => ⟨rfl, rfl⟩
theorem reset : Statement .reset := fun _ _ => ⟨rfl, rfl⟩
theorem rd (a : Byte) : Statement (.rd a) := fun _ _ => rfl
theorem wr (a d : Byte) : Statement (.wr a d) := fun _ _ => ⟨rfl, rfl⟩
theorem setReportingQuery (id0 id1 : Byte) : Statement (.setReportingQuery id0 id1) :=
  fun c h => command_length c h _ _ _ _ _
theorem setReportingActive (id0 id1 : Byte) : Statement (.setReportingActive id0 id1) :=
  fun c h => command_length c h _ _ _ _ _
theorem setSleep (id0 id1 : Byte) : Statement (.setSleep id0 id1) :=
  fun c h => command_length c h _ _ _ _ _
theorem setWork (id0 id1 : Byte) : Statement (.setWork id0 id1) :=
  fun c h => command_length c h _ _ _ _ _
theorem setWorkingPeriod (n id0 id1 : Byte) : Statement (.setWorkingPeriod n id0 id1) :=
  fun c h => command_length c h _ _ _ _ _
theorem queryFirmware (id0 id1 : Byte) : Statement (.queryFirmware id0 id1) :=
  fun c h => command_length c h _ _ _ _ _
theorem queryData (id0 id1 : Byte) : Statement (.queryData id0 id1) :=
  fun c h => command_length c h _ _ _ _ _
theorem dataReport (p0 p1 p2 p3 id0 id1 cs : Byte) : Statement (.dataReport p0 p1 p2 p3 id0 id1 cs) := fun _ _ => rfl
theorem replyReportingMode (rw mode rsv id0 id1 cs : Byte) :
    Statement (.replyReportingMode rw mode rsv id0 id1 cs) := fun _ _ => rfl
theorem replyDeviceMode (rw st rsv id0 id1 cs : Byte) :
    Statement (.replyDeviceMode rw st rsv id0 id1 cs) := fun _ _ => rfl
theorem replyWorkingPeriod (rw n rsv id0 id1 cs : Byte) :
    Statement (.replyWorkingPeriod rw n rsv id0 id1 cs) := fun _ _ => rfl
theorem replyFirmware (yy mm dd id0 id1 cs : Byte) :
    Statement (.replyFirmware yy mm dd id0 id1 cs) := fun _ _ => rfl

end EncodedFormat

end Sys2Proof.Laws
end

