-- ==== Sys2Proof/Tests/Slice0.lean ====
section
/-! SUPPORT. Tests on fixed values, each expected value from 95_test_vectors.md or worked out by hand from the rules, and
a witness for the hypotheses of every obligation that has some. -/

namespace Sys2Proof.Tests

open Sys2Proof Sys2Proof.Machine

/-! ## Small states -/

/-- The next state of a result, if it has one. -/
def nextOf : Result → Option State
  | .next t => some t
  | .fault _ => none
  | .refused _ => none

/-- The fault of a result, if it has one. -/
def faultOf : Result → Option Fault
  | .next _ => none
  | .fault r => some r
  | .refused _ => none

/-- A transport error value. -/
def err0 : TErr := ⟨0, .inl rfl⟩

/-- The payload of `QUERY_DATA` in `TXBUF`, addressed to all. -/
def queryDataBuf : List Byte :=
  encodeFrame Config.default 0xB4 (commandPayload Config.default 0x04 0x00 0x00) 0xFF 0xFF

/-- Idle after reset, with `S` given. -/
def idle (S : List Byte) : State := State.boot Config.default { incoming := S, outgoing := [] } []

/-- Idle, with `QUERY_DATA` encoded (the end of an ENCODE). -/
def encoded : State :=
  { idle [] with blk := { (idle []).blk with
    txBuf := queryDataBuf
    txPl := commandPayload Config.default 0x04 0x00 0x00
    status := { result := .ok, busy := false, txValid := true, rxValid := false, chain := false } } }

/-- Transmitting `QUERY_DATA`, `p` bytes accepted, as an exchange or alone. -/
def sending (p : Nat) (chain : Bool) : State :=
  { idle [] with blk := { (idle []).blk with
    phase := .tx
    txBuf := queryDataBuf
    txPtr := p
    status := { result := .none, busy := true, txValid := true, rxValid := false, chain := chain } } }

/-- Receiving, with an expected type, the bytes got so far, and `S`. -/
def receiving (exp : Byte) (got S : List Byte) : State :=
  { idle S with blk := { (idle S).blk with
    phase := .rx
    expType := exp
    rxBuf := got
    rxCnt := got.length
    status := { result := .none, busy := true, txValid := false, rxValid := false, chain := false } } }

/-- The base frame `G` of 95_test_vectors.md section 4. -/
def frameG : List Byte := [0xAA, 0xC0, 0x7B, 0x00, 0x2D, 0x00, 0xAB, 0xCD, 0x20, 0xAB]

/-- Idle, after the reception of `G` with a measurement expected. -/
def received : State :=
  { idle [] with blk := { (idle []).blk with
    expType := 0xC0
    rxBuf := frameG
    rxCnt := 10
    rxFrame := some { type := 0xC0, pl := [0x7B, 0x00, 0x2D, 0x00], id0 := 0xAB, id1 := 0xCD }
    status := { result := .ok, busy := false, txValid := false, rxValid := true, chain := false } } }

/-- A SEND in progress while the field registers hold the frame `G`. -/
def sendingAfterReception : State :=
  { received with blk := { received.blk with
    phase := .tx
    txBuf := queryDataBuf
    status := { result := .none, busy := true, txValid := true, rxValid := true, chain := false } } }

/-- Idle, after a transport error of the given kind. -/
def failed (why : TErrKind) : State :=
  { idle [] with blk := { (idle []).blk with
    terr := some why
    status := { result := .transportError, busy := false, txValid := false, rxValid := false, chain := false } } }

/-- Idle, with one event to come. -/
def next (e : Event) : State := { idle [] with agenda := [e] }

/-- `s` with the little-endian DEVID_ORDER. -/
def withLe (s : State) : State := { s with cfg := { s.cfg with devIdOrder := .le } }

/-! ## WellFormed: the one check refuses the one ill-formed address (opcode table, WR row) -/

theorem test_wr_ctrl_illFormed : (Instr.wr 0x00 0x01).wellFormed = false := by decide
theorem test_wr_wellFormed : (Instr.wr 0x01 0x01).wellFormed = true := by decide
theorem test_period_any_n : (Instr.setWorkingPeriod 0xFF 0x00 0x00).wellFormed = true := by decide

/-! ## Decoding, a word for each constructor (30_encoding.md R76, R176; 95_test_vectors.md sections 3 and 4) -/

theorem test_decode_encode : decode Config.default (.hostWrite 0x00 0x01) = .ok .encode := by decide
theorem test_decode_send : decode Config.default (.hostWrite 0x00 0x02) = .ok .send := by decide
theorem test_decode_recv : decode Config.default (.hostWrite 0x00 0x03) = .ok .recv := by decide
theorem test_decode_xchg : decode Config.default (.hostWrite 0x00 0x04) = .ok .xchg := by decide
theorem test_decode_reset : decode Config.default (.hostWrite 0x00 0x80) = .ok .reset := by decide
theorem test_decode_rd : decode Config.default (.hostRead 0x09) = .ok (.rd 0x09) := by decide
theorem test_decode_wr : decode Config.default (.hostWrite 0x04 0xC0) = .ok (.wr 0x04 0xC0) := by decide
theorem test_decode_setReportingQuery : decode Config.default (.cmdFrame
    [0xAA, 0xB4, 0x02, 0x01, 0x01, 0, 0, 0, 0, 0, 0, 0, 0, 0, 0, 0xFF, 0xFF, 0x02, 0xAB]) =
    .ok (.setReportingQuery 0xFF 0xFF) := by decide
theorem test_decode_setReportingActive : decode Config.default (.cmdFrame
    [0xAA, 0xB4, 0x02, 0x01, 0x00, 0, 0, 0, 0, 0, 0, 0, 0, 0, 0, 0xFF, 0xFF, 0x01, 0xAB]) =
    .ok (.setReportingActive 0xFF 0xFF) := by decide
theorem test_decode_setSleep : decode Config.default (.cmdFrame
    [0xAA, 0xB4, 0x06, 0x01, 0x00, 0, 0, 0, 0, 0, 0, 0, 0, 0, 0, 0xA1, 0x60, 0x08, 0xAB]) =
    .ok (.setSleep 0xA1 0x60) := by decide
theorem test_decode_setWork : decode Config.default (.cmdFrame
    [0xAA, 0xB4, 0x06, 0x01, 0x01, 0, 0, 0, 0, 0, 0, 0, 0, 0, 0, 0xFF, 0xFF, 0x06, 0xAB]) =
    .ok (.setWork 0xFF 0xFF) := by decide
theorem test_decode_setWorkingPeriod : decode Config.default (.cmdFrame
    [0xAA, 0xB4, 0x08, 0x01, 0xFF, 0, 0, 0, 0, 0, 0, 0, 0, 0, 0, 0xFF, 0xFF, 0x06, 0xAB]) =
    .ok (.setWorkingPeriod 0xFF 0xFF 0xFF) := by decide
theorem test_decode_queryFirmware : decode Config.default (.cmdFrame
    [0xAA, 0xB4, 0x07, 0x00, 0x00, 0, 0, 0, 0, 0, 0, 0, 0, 0, 0, 0xFF, 0xFF, 0x05, 0xAB]) =
    .ok (.queryFirmware 0xFF 0xFF) := by decide
theorem test_decode_queryData : decode Config.default (.cmdFrame
    [0xAA, 0xB4, 0x04, 0x00, 0x00, 0, 0, 0, 0, 0, 0, 0, 0, 0, 0, 0xA1, 0x60, 0x05, 0xAB]) =
    .ok (.queryData 0xA1 0x60) := by decide
theorem test_decode_dataReport : decode Config.default (.rspFrame
    [0xAA, 0xC0, 0xD4, 0x04, 0x3A, 0x0A, 0xA1, 0x60, 0x1D, 0xAB]) =
    .ok (.dataReport 0xD4 0x04 0x3A 0x0A 0xA1 0x60 0x1D) := by decide
theorem test_decode_replyReportingMode : decode Config.default (.rspFrame
    [0xAA, 0xC5, 0x02, 0x01, 0x01, 0x00, 0xA1, 0x60, 0x05, 0xAB]) =
    .ok (.replyReportingMode 0x01 0x01 0x00 0xA1 0x60 0x05) := by decide
theorem test_decode_replyDeviceMode : decode Config.default (.rspFrame
    [0xAA, 0xC5, 0x06, 0x01, 0x01, 0x00, 0xA1, 0x60, 0x09, 0xAB]) =
    .ok (.replyDeviceMode 0x01 0x01 0x00 0xA1 0x60 0x09) := by decide
theorem test_decode_replyWorkingPeriod : decode Config.default (.rspFrame
    [0xAA, 0xC5, 0x08, 0x01, 0x05, 0x00, 0xA1, 0x60, 0x0F, 0xAB]) =
    .ok (.replyWorkingPeriod 0x01 0x05 0x00 0xA1 0x60 0x0F) := by decide
theorem test_decode_replyFirmware : decode Config.default (.rspFrame
    [0xAA, 0xC5, 0x07, 0x0F, 0x07, 0x0A, 0xA1, 0x60, 0x28, 0xAB]) =
    .ok (.replyFirmware 0x0F 0x07 0x0A 0xA1 0x60 0x28) := by decide

/-! Refused by name: reserved opcodes (R77), wrong markers, length and checksum (R102), unknown sub-commands. -/

theorem test_decode_reserved_05 : decode Config.default (.hostWrite 0x00 0x05) = .error .reservedOpcode := by decide
theorem test_decode_reserved_ff : decode Config.default (.hostWrite 0x00 0xFF) = .error .reservedOpcode := by decide
theorem test_decode_bad_checksum : decode Config.default (.cmdFrame
    [0xAA, 0xB4, 0x06, 0x01, 0x00, 0, 0, 0, 0, 0, 0, 0, 0, 0, 0, 0xA1, 0x60, 0x09, 0xAB]) =
    .error (.badFrame .checksumMismatch) := by decide
theorem test_decode_reserved_byte_set : decode Config.default (.cmdFrame
    [0xAA, 0xB4, 0x06, 0x01, 0x00, 1, 0, 0, 0, 0, 0, 0, 0, 0, 0, 0xA1, 0x60, 0x09, 0xAB]) =
    .error .unknownCommand := by decide
theorem test_decode_short : decode Config.default (.rspFrame [0xAA, 0xC5]) = .error (.badFrame .invalidLength) := by decide
theorem test_decode_unknown_reply : decode Config.default (.rspFrame
    [0xAA, 0xC5, 0x09, 0x01, 0x05, 0x00, 0xA1, 0x60, 0x10, 0xAB]) = .error .unknownReply := by decide

/-! ## Table words (log entry 9), and the first step after reset -/

theorem test_table_recv : decodeTableWord 8 0x03 = some .recv := by decide
theorem test_table_rd : decodeTableWord 8 0x50 = some (.rd 0x50) := by decide
theorem test_table_wr : decodeTableWord 16 0x05A1 = some (.wr 0x05 0xA1) := by decide
/-- The match word of the SET_WORK row, ID and checksum bits zero. -/
theorem test_table_setWork : decodeTableWord 152 (0xAA + 0xB4 * 2 ^ 8 + 0x06 * 2 ^ 16 + 0x01 * 2 ^ 24 + 0x01 * 2 ^ 32 +
    0xAB * 2 ^ 144) = some (.setWork 0 0) := by decide
theorem test_table_bad_tail : decodeTableWord 152 (0xAA + 0xB4 * 2 ^ 8 + 0x06 * 2 ^ 16 + 0x01 * 2 ^ 24 + 0x01 * 2 ^ 32) =
    none := by decide
theorem test_table_replyFirmware : decodeTableWord 80 (0xAA + 0xC5 * 2 ^ 8 + 0x07 * 2 ^ 16 + 0xAB * 2 ^ 72) =
    some (.replyFirmware 0 0 0 0 0 0) := by decide
theorem test_first_step_encode :
    (nextOf (step (State.reset.withFetchWord 8 0x01))).map (·.blk.status.toByte) = some 0x21 := by decide

/-! ## The codec (95_test_vectors.md sections 2 to 4) -/

theorem test_checksum_report : low8 (byteSum [0xD4, 0x04, 0x3A, 0x0A, 0xA1, 0x60]) = 0x1D := by decide
theorem test_checksum_wraps : low8 (byteSum [0xFF, 0xFF, 0xFF, 0xFF, 0xFF, 0xFF]) = 0xFA := by decide
theorem test_checksum_of_frame : checksum frameG = 0x20 := by decide
theorem test_encode_empty_payload :
    encodeFrame Config.default 0x12 [] 0x34 0x56 = [0xAA, 0x12, 0x34, 0x56, 0x8A, 0xAB] := by decide
theorem test_order_head_before_tail : decodeFrame Config.default 10
    [0x00, 0xC0, 0x7B, 0x00, 0x2D, 0x00, 0xAB, 0xCD, 0x20, 0x00] = .error .invalidHead := by decide
theorem test_order_tail_before_checksum : decodeFrame Config.default 10
    [0xAA, 0xC0, 0x7B, 0x00, 0x2D, 0x00, 0xAB, 0xCD, 0x21, 0x00] = .error .invalidTail := by decide
theorem test_short_frame : decodeFrame Config.default 10 (frameG.take 9) = .error .invalidLength := by decide
theorem test_long_frame : decodeFrame Config.default 10 (frameG ++ [0x00]) = .error .invalidLength := by decide
/-- R156: 123 is 1.23, and 1236 is 12.36. -/
theorem test_concentration : concentration 123 = (1, 23) ∧ concentration 1236 = (12, 36) := by decide

/-! ## Reset (R240) -/

theorem test_reset_status : State.reset.blk.status.toByte = 0x00 := by decide
theorem test_reset_types : State.reset.blk.txType = 0xB4 ∧ State.reset.blk.expType = 0xC5 := by decide
theorem test_reset_id : State.reset.blk.txId0 = 0xFF ∧ State.reset.blk.txId1 = 0xFF := by decide

/-! ## Host operations (95_test_vectors.md section 5) -/

/-- H2. -/
theorem test_encode : (nextOf (exec .encode (idle []))).map (fun t => (t.blk.status.toByte, t.blk.txBuf)) =
    some (0x21, [0xAA, 0xB4, 0, 0, 0, 0, 0, 0, 0, 0, 0, 0, 0, 0, 0, 0xFF, 0xFF, 0xFE, 0xAB]) := by decide
theorem test_encode_busy : faultOf (exec .encode (sending 0 false)) = some .busy := by decide
/-- H1. -/
theorem test_send_without_frame : (nextOf (exec .send (idle []))).map (·.blk.status.toByte) = some 0x08 := by decide
theorem test_send_starts : (nextOf (exec .send encoded)).map (fun t => (t.blk.status.toByte, t.blk.phase)) =
    some (0x30, .tx) := by decide
/-- H8. -/
theorem test_recv_starts : (nextOf (exec .recv received)).map (fun t => (t.blk.status.toByte, t.blk.phase, t.blk.rxCnt)) =
    some (0x10, .rx, 0) := by decide
theorem test_xchg_starts : (nextOf (exec .xchg received)).map (fun t => (t.blk.status.toByte, t.blk.phase)) =
    some (0xB0, .tx) := by decide
/-- H10. -/
theorem test_xchg_busy : faultOf (exec .xchg (receiving 0xC5 [] [])) = some .busy := by decide
/-- H9; bytes of `S` stay (R242). -/
theorem test_reset_busy : (nextOf (exec .reset (receiving 0xC5 [0xAA] [0xC5]))).map
    (fun t => (t.blk.status.toByte, t.blk.rxCnt, t.link.incoming)) = some (0x00, 0, [0xC5]) := by decide
/-- P1 step 12: `RD RXID1` reads the last ID byte. -/
theorem test_rd_field : (nextOf (exec (.rd 0x56) received)).map (·.port.rdData) = some (some 0xCD) := by decide
/-- H13. -/
theorem test_rd_no_value : faultOf (exec (.rd 0x50) (idle [])) = some .noValue := by decide
/-- R52, R176: a field register that holds a value is read during a SEND after a reception; R256, R232: the run is faulted,
and the next step does not happen. -/
theorem test_rd_field_busy :
    (nextOf (exec (.rd 0x50) sendingAfterReception)).map (fun t => (t.port.rdData, t.faulted, faultOf (step t))) =
      some (some 0xC0, some .noValue, some .noValue) := by decide
/-- R42: RXBUF is read while busy, with no mark. -/
theorem test_rd_rxbuf_busy :
    (nextOf (exec (.rd 0x49) sendingAfterReception)).map (fun t => (t.port.rdData, t.faulted)) = some (some 0xAB, none) := by
  decide
/-- R176's example. -/
theorem test_wr_id0 : (nextOf (exec (.wr 0x05 0xA1) (idle []))).map (fun t => (t.blk.txId0, t.blk.txId1)) =
    some (0xA1, 0xFF) := by decide
/-- The last payload register, and no other. -/
theorem test_wr_last_payload : (nextOf (exec (.wr 0x1C 0x11) (idle []))).map (·.blk.txPl) =
    some [0, 0, 0, 0, 0, 0, 0, 0, 0, 0, 0, 0, 0x11] := by decide
/-- H12, while busy. -/
theorem test_reserved_opcode_busy :
    faultOf (runEvent (.fetch (.hostWrite 0x00 0x07)) (receiving 0xC5 [] [])) = some .reservedOpcode := by decide

/-! ## Link steps (H3 to H7, H17, H18) -/

theorem test_tx_all : (linkTxStep (.accepted 19) (sending 0 false)).blk.status.toByte = 0x21 := by decide
theorem test_tx_chain : ((linkTxStep (.accepted 11) (sending 8 true)).blk.phase,
    (linkTxStep (.accepted 11) (sending 8 true)).blk.status.toByte) = (.rx, 0x30) := by decide
theorem test_tx_write_zero : ((linkTxStep (.accepted 0) (sending 5 false)).blk.status.toByte,
    readReg .terr (linkTxStep (.accepted 0) (sending 5 false)).blk) = (0x27, some 0x02) := by decide
theorem test_tx_error_in_exchange : ((linkTxStep (.err err0) (sending 12 true)).blk.status.toByte,
    (linkTxStep (.err err0) (sending 12 true)).blk.txPtr) = (0x27, 12) := by decide
theorem test_rx_read_zero : ((linkRxStep (.delivered 0) (receiving 0xC5 [0xAA, 0xC5, 0x06] [])).blk.status.toByte,
    readReg .terr (linkRxStep (.delivered 0) (receiving 0xC5 [0xAA, 0xC5, 0x06] [])).blk) = (0x07, some 0x01) := by decide
/-- W7. -/
theorem test_rx_measurement : ((linkRxStep (.delivered 10) (receiving 0xC0 [] frameG)).blk.status.toByte,
    (linkRxStep (.delivered 10) (receiving 0xC0 [] frameG)).port.typed) =
    (0x41, some (.measurement 123 45 0xABCD)) := by decide
/-- W5: a report where a reply is expected. -/
theorem test_rx_unexpected : ((linkRxStep (.delivered 10) (receiving 0xC5 [] frameG)).blk.status.toByte,
    (linkRxStep (.delivered 10) (receiving 0xC5 [] frameG)).port.typed) = (0x46, none) := by decide
/-- W8. -/
theorem test_rx_checksum : (linkRxStep (.delivered 10) (receiving 0xC0 []
    [0xAA, 0xC0, 0x7B, 0x00, 0x2D, 0x00, 0xAB, 0xCD, 0x21, 0xAB])).blk.status.toByte = 0x05 := by decide
/-- Y3: a misaligned window that passes every structural check. -/
theorem test_rx_misaligned : (linkRxStep (.delivered 10) (receiving 0xC0 []
    [0xAA, 0x01, 0xDB, 0xAB, 0xAA, 0xC0, 0x00, 0x00, 0xF0, 0xAB])).blk.rxFrame.map (·.type) = some 0x01 := by decide
/-- H6, its second chunk. -/
theorem test_rx_second_chunk : (linkRxStep (.delivered 5) (receiving 0xC5 [0xAA, 0xC5, 0x06, 0x01, 0x00]
    [0x00, 0xA1, 0x60, 0x08, 0xAB])).blk.status.toByte = 0x41 := by decide
theorem test_lose_byte : (loseByte 4 (idle frameG)).link.incoming =
    [0xAA, 0xC0, 0x7B, 0x00, 0x00, 0xAB, 0xCD, 0x20, 0xAB] := by decide
/-- A SENSOR step, and a flush (P3 step 7). -/
theorem test_sensor_then_flush : (sensorAppend [0x01] (idle [0x02])).link.incoming = [0x02, 0x01] ∧
    (flushLink (idle frameG)).link.incoming = [] := by decide

/-! ## Command frames: the bytes in TXBUF (section 3) and the expected type -/

/-- The frame a command puts in TXBUF, and EXPTYPE. -/
def sent (i : Instr) : Option (List Byte × Byte) := (nextOf (exec i received)).map fun t => (t.blk.txBuf, t.blk.expType)

theorem test_setReportingQuery : sent (.setReportingQuery 0xFF 0xFF) =
    some ([0xAA, 0xB4, 0x02, 0x01, 0x01, 0, 0, 0, 0, 0, 0, 0, 0, 0, 0, 0xFF, 0xFF, 0x02, 0xAB], 0xC5) := by decide
theorem test_setReportingActive : sent (.setReportingActive 0xFF 0xFF) =
    some ([0xAA, 0xB4, 0x02, 0x01, 0x00, 0, 0, 0, 0, 0, 0, 0, 0, 0, 0, 0xFF, 0xFF, 0x01, 0xAB], 0xC5) := by decide
theorem test_setSleep : sent (.setSleep 0xA1 0x60) =
    some ([0xAA, 0xB4, 0x06, 0x01, 0x00, 0, 0, 0, 0, 0, 0, 0, 0, 0, 0, 0xA1, 0x60, 0x08, 0xAB], 0xC5) := by decide
theorem test_setWork : sent (.setWork 0xFF 0xFF) =
    some ([0xAA, 0xB4, 0x06, 0x01, 0x01, 0, 0, 0, 0, 0, 0, 0, 0, 0, 0, 0xFF, 0xFF, 0x06, 0xAB], 0xC5) := by decide
theorem test_setWorkingPeriod : sent (.setWorkingPeriod 0x1E 0xFF 0xFF) =
    some ([0xAA, 0xB4, 0x08, 0x01, 0x1E, 0, 0, 0, 0, 0, 0, 0, 0, 0, 0, 0xFF, 0xFF, 0x25, 0xAB], 0xC5) := by decide
theorem test_queryFirmware : sent (.queryFirmware 0xFF 0xFF) =
    some ([0xAA, 0xB4, 0x07, 0x00, 0x00, 0, 0, 0, 0, 0, 0, 0, 0, 0, 0, 0xFF, 0xFF, 0x05, 0xAB], 0xC5) := by decide
theorem test_queryData : sent (.queryData 0xA1 0x60) =
    some ([0xAA, 0xB4, 0x04, 0x00, 0x00, 0, 0, 0, 0, 0, 0, 0, 0, 0, 0, 0xA1, 0x60, 0x05, 0xAB], 0xC0) := by decide

/-! ## Response frames (section 4) -/

/-- Receiving the reply to a command whose bytes have all been accepted. -/
def receivingAfter (i : Instr) : State :=
  ((nextOf (exec i (idle []))).map (linkTxStep (.accepted 19))).getD (idle [])

/-- ENCODE of a command with argument 0. -/
def encodeOf (sub rw : Byte) : List Instr := [wrReg (.txPl 0) sub, wrReg (.txPl 1) rw, .encode]

/-- One command encoded and sent by SEND, then another encoded and not sent, then RECV. -/
def sentThenEncoded (sub rw sub' rw' : Byte) : State :=
  let run := fun (is : List Instr) (s : State) => (nextOf (runInstrs is s)).getD (idle [])
  run (encodeOf sub' rw' ++ [.recv]) (linkTxStep (.accepted 19) (run (encodeOf sub rw ++ [.send]) (idle [])))

/-- The verdict, the typed result and the rest of `S` after a response frame. -/
def answered (i : Instr) (s : State) : Option (Byte × Option Typed × List Byte) :=
  (nextOf (exec i s)).map fun t => (t.blk.status.toByte, t.port.typed, t.link.incoming)

theorem test_dataReport : answered (.dataReport 0xD4 0x04 0x3A 0x0A 0xA1 0x60 0x1D) (receiving 0xC0 [] []) =
    some (0x41, some (.measurement 1236 2618 0xA160), []) := by decide
theorem test_dataReport_le : answered (.dataReport 0xE8 0x03 0xD0 0x07 0x01 0x02 0xC5) (withLe (receiving 0xC0 [] [])) =
    some (0x41, some (.measurement 1000 2000 0x0201), []) := by decide
theorem test_replyReportingMode : answered (.replyReportingMode 0x01 0x00 0x00 0xA1 0x60 0x04) (receiving 0xC5 [] []) =
    some (0x41, some .ack, []) := by decide
/-- The last row of section 4: a reply where a measurement is expected. -/
theorem test_replyDeviceMode_unexpected :
    answered (.replyDeviceMode 0x01 0x00 0x00 0xA1 0x60 0x08) (receiving 0xC0 [] []) = some (0x46, none, []) := by decide
theorem test_replyDeviceMode : answered (.replyDeviceMode 0x01 0x00 0x00 0xA1 0x60 0x08) (receiving 0xC5 [] []) =
    some (0x41, some .ack, []) := by decide
/-- P4 step 2: the ack behind an unsolicited report stays in `S`. -/
theorem test_replyWorkingPeriod_behind_report :
    answered (.replyWorkingPeriod 0x01 0x05 0x00 0xAB 0xCD 0x86) (receiving 0xC5 [] frameG) =
    some (0x46, none, [0xAA, 0xC5, 0x08, 0x01, 0x05, 0x00, 0xAB, 0xCD, 0x86, 0xAB]) := by decide
theorem test_replyWorkingPeriod : answered (.replyWorkingPeriod 0x01 0x05 0x00 0xA1 0x60 0x0F) (receiving 0xC5 [] []) =
    some (0x41, some .ack, []) := by decide
theorem test_replyFirmware : answered (.replyFirmware 0x0F 0x07 0x0A 0xA1 0x60 0x28) (receiving 0xC5 [] []) =
    some (0x41, some (.deviceInfo 15 7 10 0xA160), []) := by decide
/-- R158: a set command is acknowledged by any known reply, whatever it echoes; `SET_SLEEP` was sent here. -/
theorem test_replyFirmware_to_set_command :
    answered (.replyFirmware 0x0F 0x07 0x0A 0xA1 0x60 0x28) (receivingAfter (.setSleep 0xA1 0x60)) =
    some (0x61, some .ack, []) := by decide
/-- R158: the same reply to `QUERY_FIRMWARE` is the firmware date. -/
theorem test_replyFirmware_to_query :
    answered (.replyFirmware 0x0F 0x07 0x0A 0xA1 0x60 0x28) (receivingAfter (.queryFirmware 0xFF 0xFF)) =
    some (0x61, some (.deviceInfo 15 7 10 0xA160), []) := by decide
/-- R155, R171: `QUERY_FIRMWARE` sent alone, `SET_SLEEP` encoded and not sent, then RECV: the reply is the firmware date. -/
theorem test_reply_answers_the_sent_query :
    answered (.replyFirmware 0x0F 0x07 0x0A 0xA1 0x60 0x28) (sentThenEncoded 0x07 0x00 0x06 0x01) =
    some (0x61, some (.deviceInfo 15 7 10 0xA160), []) := by decide
/-- R158, R171: the other way round it acknowledges the set command that was sent. -/
theorem test_reply_answers_the_sent_set_command :
    answered (.replyFirmware 0x0F 0x07 0x0A 0xA1 0x60 0x28) (sentThenEncoded 0x06 0x01 0x07 0x00) =
    some (0x61, some .ack, []) := by decide
/-- R138: a second reply answers no command, so it is decoded by its own row. -/
theorem test_second_reply :
    (nextOf (exec (.replyDeviceMode 0x01 0x00 0x00 0xA1 0x60 0x08) (receivingAfter (.setSleep 0xA1 0x60)))).bind
      (fun s => (nextOf (exec .recv s)).bind (answered (.replyFirmware 0x0F 0x07 0x0A 0xA1 0x60 0x28))) =
    some (0x61, some (.deviceInfo 15 7 10 0xA160), []) := by decide
/-- R35, R194: with no reception in progress the frame waits. -/
theorem test_replyFirmware_waits : answered (.replyFirmware 0x0F 0x07 0x0A 0xA1 0x60 0x28) (idle []) =
    some (0x00, none, [0xAA, 0xC5, 0x07, 0x0F, 0x07, 0x0A, 0xA1, 0x60, 0x28, 0xAB]) := by decide

/-! ## Host programs (R82, R83) -/

/-- LOADPL of two bytes is thirteen writes, the missing bytes zero; a fourteenth byte is dropped (log entry 23). -/
theorem test_loadPl : (loadPl Config.default [0x06, 0x01]).length = 13 ∧
    (loadPl Config.default [0x06, 0x01])[1]? = some (.wr 0x11 0x01) ∧
    (loadPl Config.default [0x06, 0x01])[12]? = some (.wr 0x1C 0x00) ∧
    loadPl Config.default (List.replicate 14 0xFF) = loadPl Config.default (List.replicate 13 0xFF) := by decide
/-- `LISTEN` with the report delivered during the WAIT (P1): the program ends with the frame accepted. -/
theorem test_listen : (match runLines 3 [] (listenLines Config.default)
      { idle frameG with agenda := [.linkRx (.delivered 10)] } with
    | .finished t => some (t.blk.status.toByte, t.port.typed)
    | _ => none) = some (0x41, some (.measurement 123 45 0xABCD)) := by decide
/-- A silent link: the WAIT does not end, and the line after it does not run (R253). -/
theorem test_listen_silent : (match runLines 3 [] (listenLines Config.default ++ [.instr .encode]) (idle []) with
    | .waiting t => some t.blk.status.toByte
    | _ => none) = some 0x10 := by decide
/-- A schedule in which the sensor moves before the second line (R18). -/
theorem test_schedule : (match runLines 0 [0, 1] [.settle, .settle] { idle [] with agenda := [.sensor [0xAA]] } with
    | .finished t => some t.link.incoming
    | _ => none) = some [0xAA] := by decide

/-! ## Other frame lengths (R5; log entry 13) -/

/-- With `N_CMD = 9` there are three payload registers, and the rest of their window is reserved. -/
theorem test_short_command : (nextOf (exec (.setSleep 0xA1 0x60)
      (State.boot { nCmd := 9 } { incoming := [], outgoing := [] } []))).map (·.blk.txBuf) =
    some [0xAA, 0xB4, 0x06, 0x01, 0x00, 0xA1, 0x60, 0x08, 0xAB] ∧
    regAt { nCmd := 9 } 0x12 = some (.txPl 2) ∧ regAt { nCmd := 9 } 0x13 = none := by decide

/-- With `N_RSP = 9` a frame has three payload bytes, and no typed result (log entry 24). -/
theorem test_short_response : typedDecode { nRsp := 9 } false
    { type := 0xC0, pl := [0x7B, 0x00, 0x2D], id0 := 0xAB, id1 := 0xCD } = none := by decide

/-! ## Witnesses: the hypotheses of each obligation, met together, at the boundary values of each clause -/

theorem witness_FrameLayoutByOffset : 0 < ([0x04] : List Byte).length := by decide
theorem witness_EncodeThenDecodeIsIdentity : 6 ≤ 6 ∧ ([] : List Byte).length = 6 - 6 := by decide
theorem witness_EncodeThenDecodeIsIdentity_command :
    6 ≤ Config.default.nCmd ∧
    (commandPayload Config.default 0x06 0x01 0x00).length = Config.default.nCmd - 6 := by decide
theorem witness_EncodeIsInjective : frameG.length = (frameG.set 1 0xC5).length ∧ 9 < frameG.length := by decide
theorem witness_EncodeIsInjective_same :
    encodeFrame Config.default 0xC0 [0x7B, 0x00] 0xAB 0xCD = encodeFrame Config.default (0xBF + 1) [0x7B, 0x00] 0xAB 0xCD := by
  decide
theorem witness_DecodeVerdictByFirstFailingCheck :
    6 ≤ 10 ∧ decodeFrame Config.default 10 frameG =
      .ok { type := 0xC0, pl := [0x7B, 0x00, 0x2D, 0x00], id0 := 0xAB, id1 := 0xCD } ∧
    decodeFrame Config.default 10 (frameG.set 8 0x21) = .error .checksumMismatch := by decide
theorem witness_SingleByteCorruption :
    6 ≤ 10 ∧ decodeFrame Config.default 10 frameG =
      .ok { type := 0xC0, pl := [0x7B, 0x00, 0x2D, 0x00], id0 := 0xAB, id1 := 0xCD } ∧
    frameG[0]? = some 0xAA ∧ frameG[1]? = some 0xC0 ∧ frameG[2]? = some 0x7B ∧ frameG[8]? = some 0x20 ∧
    frameG[9]? = some 0xAB ∧ (0x00 : Byte) ≠ 0xAA ∧ (0xC5 : Byte) ≠ 0xC0 ∧ (0x7C : Byte) ≠ 0x7B ∧
    (0x21 : Byte) ≠ 0x20 ∧ (0x00 : Byte) ≠ 0xAB := by decide
/-- The two undetected changes of section 4: compensating bytes, and a reordering. -/
theorem witness_SameSumIsUndetected :
    ([0x7C, 0xFF, 0x2D, 0x00] : List Byte).length = ([0x7B, 0x00, 0x2D, 0x00] : List Byte).length ∧
    byteSum [0x7C, 0xFF, 0x2D, 0x00, 0xAB, 0xCD] % 256 = byteSum [0x7B, 0x00, 0x2D, 0x00, 0xAB, 0xCD] % 256 := by decide
theorem witness_SameSumIsUndetected_reordered :
    (([0x2D, 0x00, 0x7B, 0x00] : List Byte) ++ [0xAB, 0xCD]).Perm ([0x7B, 0x00, 0x2D, 0x00] ++ [0xAB, 0xCD]) := by decide

theorem witness_DecodeOfEncodeIsIdentity :
    Config.default.legal ∧ Config.default.typeData ≠ Config.default.typeReply ∧ (Instr.setWorkingPeriod 0xFF 0xA1 0x60).wellFormed = true ∧
    (Instr.wr 0xFF 0x00).wellFormed = true := by decide
theorem witness_EncodeOfDecodeIsIdentity :
    decode Config.default (.rspFrame frameG) = .ok (.dataReport 0x7B 0x00 0x2D 0x00 0xAB 0xCD 0x20) := by decide
/-- Each end of the reserved ranges, and the defined values, while busy. -/
theorem witness_ReservedOpcodeFaults :
    (0x05 ≤ (0x05 : Byte).toNat ∧ (0x7F : Byte).toNat ≤ 0x7F ∧ 0x81 ≤ (0x81 : Byte).toNat ∧ 0x81 ≤ (0xFF : Byte).toNat) ∧
    (receiving 0xC5 [] []).blk.status.busy = true := by decide
theorem witness_RegisterMapAddresses :
    (Reg.txPl 12).present Config.default = true ∧ (Reg.txPl 13).present Config.default = false ∧
    regAt Config.default 0x32 = some (.txBuf 18) ∧ regAt Config.default 0x49 = some (.rxBuf 9) ∧
    regAt Config.default 0x54 = some (.rxPl 3) ∧ regAt Config.default 0x57 = none ∧
    Config.default.nCmd = 19 ∧ Config.default.nRsp = 10 := by decide
/-- The reserved, read-only and configuration ranges at both ends, a busy block, and one whose registers hold nothing. -/
theorem witness_HostAccessFaultReasons :
    (idle []).cfg.nCmd = 19 ∧ (idle []).cfg.nRsp = 10 ∧ (receiving 0xC5 [] []).cfg.nCmd = 19 ∧
    (receiving 0xC5 [] []).cfg.nRsp = 10 ∧
    (0x0A ≤ (0x0A : Byte).toNat ∧ (0x0F : Byte).toNat ≤ 0x0F) ∧ (0x57 ≤ (0x57 : Byte).toNat ∧ 0x57 ≤ (0xFF : Byte).toNat) ∧
    (0x20 ≤ (0x20 : Byte).toNat ∧ (0x32 : Byte).toNat ≤ 0x32) ∧ (0x10 ≤ (0x10 : Byte).toNat ∧ (0x1C : Byte).toNat ≤ 0x1C) ∧
    (receiving 0xC5 [] []).blk.status.busy = true ∧
    (idle []).blk.status.result ≠ .transportError ∧ (idle []).blk.rxCnt ≤ (0 : Fin 10).val ∧
    (receiving 0xC5 [0xAA] []).blk.rxCnt ≤ (9 : Fin 10).val ∧ (idle []).blk.status.rxValid = false ∧
    0x50 ≤ (0x50 : Byte).toNat ∧ (0x56 : Byte).toNat ≤ 0x56 := by decide
theorem witness_ReadsOfHeldValues :
    (idle []).blk.phase = .idle ∧ (sending 0 true).blk.phase = .tx ∧ (receiving 0xC5 [] []).blk.phase = .rx ∧
    ((failed .readZero).blk.status.result = .transportError ∧ (failed .readZero).blk.terr = some .readZero) ∧
    (failed .writeZero).blk.terr = some .writeZero ∧
    (failed (.transport err0)).blk.terr = some (.transport err0) ∧
    ((12 : Fin 16).val < received.cfg.pCmd ∧ received.blk.txPl[(12 : Fin 16).val]? = some 0x00) ∧
    ((18 : Fin 32).val < received.cfg.nCmd ∧ received.blk.txBuf[(18 : Fin 32).val]? = some 0x00) ∧
    ((9 : Fin 16).val < received.cfg.nRsp ∧ (9 : Fin 16).val < received.blk.rxCnt ∧
      received.blk.rxBuf[(9 : Fin 16).val]? = some 0xAB) ∧
    ((3 : Fin 4).val < received.cfg.pRsp ∧ received.blk.status.rxValid = true ∧ received.blk.status.busy = false ∧ received.blk.rxFrame =
      some { type := 0xC0, pl := [0x7B, 0x00, 0x2D, 0x00], id0 := 0xAB, id1 := 0xCD }) := by decide

/-- A state after an accepted reception meets the invariant. -/
theorem witness_inv_received : received.Inv where
  cfg_legal := by decide
  r38 := by constructor <;> decide
  txPtr_le := by decide
  rxCnt_le := by decide
  txPl_length := by decide
  txBuf_length := by decide
  rxBuf_length := by decide
  rxFrame_isSome := by decide
  rxFrame_decoded f h := by cases h; decide
  txBuf_encoded h := absurd h (by decide)
  result_length := by decide
  chain_rx := by decide

/-- An exchange with one byte still to send meets the invariant. -/
theorem witness_inv_sending : (sending 18 true).Inv where
  cfg_legal := by decide
  r38 := by constructor <;> decide
  txPtr_le := by decide
  rxCnt_le := by decide
  txPl_length := by decide
  txBuf_length := by decide
  rxBuf_length := by decide
  rxFrame_isSome := by decide
  rxFrame_decoded f h := by cases h
  txBuf_encoded _ := ⟨_, _, _, _, by decide, rfl⟩
  result_length := by decide
  chain_rx := by decide

/-- A transmission after a reception, the received frame still held, meets the invariant. -/
theorem witness_inv_sendingAfterReception : sendingAfterReception.Inv where
  cfg_legal := by decide
  r38 := by constructor <;> decide
  txPtr_le := by decide
  rxCnt_le := by decide
  txPl_length := by decide
  txBuf_length := by decide
  rxBuf_length := by decide
  rxFrame_isSome := by decide
  rxFrame_decoded f h := by cases h; decide
  txBuf_encoded _ := ⟨_, _, _, _, by decide, rfl⟩
  result_length := by decide
  chain_rx := by decide

/-- A reception with one byte still to come meets the invariant. -/
theorem witness_inv_receiving : (receiving 0xC0 (frameG.take 9) [0xAB]).Inv where
  cfg_legal := by decide
  r38 := by constructor <;> decide
  txPtr_le := by decide
  rxCnt_le := by decide
  txPl_length := by decide
  txBuf_length := by decide
  rxBuf_length := by decide
  rxFrame_isSome := by decide
  rxFrame_decoded f h := by cases h
  txBuf_encoded h := absurd h (by decide)
  result_length := by decide
  chain_rx := by decide

theorem witness_ValuesHeldExactlyWhen :
    received.Inv ∧ received.cfg.nCmd = 19 ∧ received.cfg.nRsp = 10 ∧ 9 < 10 ∧ 9 < received.blk.rxCnt ∧
    (received.blk.status.rxValid = true ∧ received.blk.status.busy = false) ∧
    0x50 ≤ (0x50 : Byte).toNat ∧ (0x56 : Byte).toNat ≤ 0x56 :=
  ⟨witness_inv_received, by decide⟩
/-- A busy state whose field registers hold values. -/
theorem witness_ValuesHeldExactlyWhen_busy :
    sendingAfterReception.Inv ∧ sendingAfterReception.cfg.nCmd = 19 ∧ sendingAfterReception.cfg.nRsp = 10 ∧
    sendingAfterReception.blk.status.rxValid = true ∧ sendingAfterReception.blk.status.busy = true :=
  ⟨witness_inv_sendingAfterReception, by decide⟩
/-- Reads that keep R256's rule, at both ends of the field registers, and reads that break it: while busy, of
`TERR`, with no value held. -/
theorem witness_ReadRuleAndFaultedRuns :
    (keepsReadRule (.rd 0x50) received = true ∧ keepsReadRule (.rd 0x56) received = true ∧
      ∃ t, exec (.rd 0x56) received = .next t) ∧
    (keepsReadRule (.rd 0x50) sendingAfterReception = false ∧ keepsReadRule (.rd 0x56) sendingAfterReception = false ∧
      sendingAfterReception.Inv) ∧
    (keepsReadRule (.rd 0x09) received = false ∧ received.Inv) ∧
    (keepsReadRule (.rd 0x50) (receiving 0xC0 (frameG.take 9) [0xAB]) = false ∧
      (receiving 0xC0 (frameG.take 9) [0xAB]).Inv) ∧ keepsReadRule (.rd 0x49) sendingAfterReception = true :=
  ⟨⟨by decide, by decide, _, rfl⟩, ⟨by decide, by decide, witness_inv_sendingAfterReception⟩,
    ⟨by decide, witness_inv_received⟩, ⟨by decide, witness_inv_receiving⟩, by decide⟩
/-- A faulted run; and an unfaulted one that goes on. -/
theorem witness_ReadRuleAndFaultedRuns_marked :
    (∃ t, exec (.rd 0x50) sendingAfterReception = .next t ∧ t.faulted = some .noValue) ∧
    (∃ t, exec .encode (idle []) = .next t ∧ t.faulted = none) ∧
    ∃ t, step (next .flush) = .next t ∧ t.faulted = none :=
  ⟨⟨_, rfl, rfl⟩, ⟨_, rfl, rfl⟩, _, rfl, rfl⟩
theorem witness_ConfigWriteChangesOneRegister :
    received.blk.status.busy = false ∧ received.blk.txPl.length = received.cfg.pCmd ∧
    ((Reg.txPl 0).isConfig = true ∧ (Reg.txPl 0).present received.cfg = true) ∧
    ((Reg.txPl 12).isConfig = true ∧ (Reg.txPl 12).present received.cfg = true) ∧
    Reg.txType.isConfig = true ∧ Reg.expType.isConfig = true ∧ Reg.txId0.isConfig = true ∧ Reg.txId1.isConfig = true := by
  decide
theorem witness_EncodeBuildsFrame : received.blk.status.busy = false := by decide
theorem witness_SendTransmitsTheFrame :
    ((idle []).blk.status.busy = false ∧ (idle []).blk.status.txValid = false) ∧
    (encoded.blk.status.busy = false ∧ encoded.blk.status.txValid = true) ∧
    ((∀ k ∈ [8, 11], 1 ≤ k) ∧ [8, 11].sum = encoded.cfg.nCmd ∧ 1 ≤ encoded.cfg.nCmd ∧
      encoded.blk.txBuf.length = encoded.cfg.nCmd) := by decide
theorem witness_RecvChecksTheNextTenBytes :
    (idle frameG).blk.status.busy = false ∧ (∀ k ∈ [3, 7], 1 ≤ k) ∧ [3, 7].sum = (idle frameG).cfg.nRsp ∧
    1 ≤ (idle frameG).cfg.nRsp ∧ (idle frameG).cfg.nRsp ≤ (idle frameG).link.incoming.length ∧
    decodeFrame Config.default 10 ((idle frameG).link.incoming.take 10) =
      .ok { type := 0xC0, pl := [0x7B, 0x00, 0x2D, 0x00], id0 := 0xAB, id1 := 0xCD } := by decide
theorem witness_ExchangeTransmitsThenReceives :
    received.blk.status.busy = false ∧ (∀ k ∈ [19], 1 ≤ k) ∧ [19].sum = received.cfg.nCmd ∧ 6 ≤ received.cfg.nCmd ∧
    received.blk.txPl.length = received.cfg.pCmd ∧ (∀ j ∈ [3, 7], 1 ≤ j) ∧ [3, 7].sum = received.cfg.nRsp ∧
    1 ≤ received.cfg.nRsp ∧ received.cfg.nRsp ≤ (received.link.incoming ++ frameG.set 0 0x00).length ∧
    decodeFrame Config.default 10 ((received.link.incoming ++ frameG.set 0 0x00).take 10) = .error .invalidHead := by decide

theorem witness_TransmitProgress :
    (sending 5 false).blk.phase = .tx ∧ 1 ≤ 13 ∧ 14 ≤ (sending 5 false).cfg.nCmd - (sending 5 false).blk.txPtr ∧
    (sending 5 false).blk.txPtr + 13 < (sending 5 false).cfg.nCmd ∧
    (sending 5 false).blk.txPtr + 14 = (sending 5 false).cfg.nCmd ∧
    (sending 5 false).blk.status.chain = false ∧ (sending 5 true).blk.status.chain = true := by decide
theorem witness_TransmitFailure : (sending 5 true).blk.phase = .tx := by decide
theorem witness_ReceiveProgress :
    (receiving 0xC5 [0xAA] [0xC5, 0x06]).blk.phase = .rx ∧ 1 ≤ 2 ∧
    (receiving 0xC5 [0xAA] [0xC5, 0x06]).blk.rxCnt + 2 < (receiving 0xC5 [0xAA] [0xC5, 0x06]).cfg.nRsp ∧
    2 ≤ (receiving 0xC5 [0xAA] [0xC5, 0x06]).link.incoming.length := by decide
theorem witness_ReceptionComplete :
    let s := receiving 0xC0 (frameG.take 9) [0xAB, 0xAA]
    s.blk.phase = .rx ∧ 1 ≤ 1 ∧ s.blk.rxCnt + 1 = s.cfg.nRsp ∧ 1 ≤ s.link.incoming.length ∧
    s.blk.rxBuf.length = s.blk.rxCnt ∧ 6 ≤ s.cfg.nRsp ∧
    decodeFrame s.cfg 10 (s.blk.rxBuf ++ s.link.incoming.take 1) =
      .ok { type := 0xC0, pl := [0x7B, 0x00, 0x2D, 0x00], id0 := 0xAB, id1 := 0xCD } := by decide
theorem witness_ReceptionComplete_error :
    let s := receiving 0xC0 (frameG.take 9) [0xAA]
    s.blk.phase = .rx ∧ s.blk.rxCnt + 1 = s.cfg.nRsp ∧ 1 ≤ s.link.incoming.length ∧
    s.blk.rxBuf.length = s.blk.rxCnt ∧ 6 ≤ s.cfg.nRsp ∧
    decodeFrame s.cfg 10 (s.blk.rxBuf ++ s.link.incoming.take 1) = .error .invalidTail := by decide
theorem witness_ReceiveFailure : (receiving 0xC5 [0xAA, 0xC5, 0x06] []).blk.phase = .rx := by decide
theorem witness_DisabledLinkStepsDoNothing :
    (receiving 0xC5 [] []).blk.phase ≠ .tx ∧ (sending 0 true).blk.phase ≠ .rx ∧
    1 ≤ 10 ∧ (receiving 0xC5 [] []).link.incoming = [] := by decide
theorem witness_ChunkSizesDoNotMatter :
    ((sending 0 true).blk.phase = .tx ∧ [8, 11] ≠ [] ∧ (∀ k ∈ [8, 11], 1 ≤ k) ∧
      (sending 0 true).blk.txPtr + [8, 11].sum ≤ (sending 0 true).cfg.nCmd) ∧
    ((receiving 0xC0 [] frameG).blk.phase = .rx ∧ [3, 7] ≠ [] ∧ (∀ k ∈ [3, 7], 1 ≤ k) ∧
      (receiving 0xC0 [] frameG).blk.rxCnt + [3, 7].sum ≤ (receiving 0xC0 [] frameG).cfg.nRsp ∧
      [3, 7].sum ≤ (receiving 0xC0 [] frameG).link.incoming.length) := by decide
theorem witness_AcceptedExactlyWhenExpected :
    decodeFrame Config.default 10 received.blk.rxBuf =
      .ok { type := 0xC0, pl := [0x7B, 0x00, 0x2D, 0x00], id0 := 0xAB, id1 := 0xCD } ∧
    (0xC0 : Byte) = received.blk.expType := by decide
/-- Y1: the first byte of the stream is lost. -/
theorem witness_NoResynchronisation :
    let s := receiving 0xC0 [] (frameG.drop 1 ++ frameG)
    s.blk.phase = .rx ∧ s.blk.rxCnt = 0 ∧ s.blk.rxBuf = [] ∧ 6 ≤ s.cfg.nRsp ∧
    s.cfg.nRsp ≤ s.link.incoming.length ∧ s.link.incoming[0]? ≠ some s.cfg.head := by decide
theorem witness_BytesReadAreStored :
    (∃ t, exec .encode (idle [0x01]) = .next t) ∧ isResponse .encode = false ∧ (idle [0x01]).blk.phase ≠ .rx :=
  ⟨⟨_, rfl⟩, by decide, by decide⟩
theorem witness_BytesReadAreStored_reception :
    (∃ t, exec (.dataReport 0x7B 0x00 0x2D 0x00 0xAB 0xCD 0x20) (receiving 0xC0 [0xAA] [0xC0]) = .next t) ∧
    encode (receiving 0xC0 [0xAA] [0xC0]).cfg (.dataReport 0x7B 0x00 0x2D 0x00 0xAB 0xCD 0x20) = .rspFrame frameG ∧
    (receiving 0xC0 [0xAA] [0xC0]).blk.phase = .rx :=
  ⟨⟨_, rfl⟩, by decide⟩
theorem witness_ResultOfEachOperation :
    (sending 18 true).Inv ∧ (sending 18 true).blk.phase = .tx ∧
      (linkTxStep (.err err0) (sending 18 true)).blk.phase = .idle :=
  ⟨witness_inv_sending, by decide⟩
theorem witness_ResultOfEachOperation_reception :
    (receiving 0xC0 (frameG.take 9) [0xAB]).Inv ∧ (receiving 0xC0 (frameG.take 9) [0xAB]).blk.phase = .rx ∧
      (linkRxStep (.delivered 1) (receiving 0xC0 (frameG.take 9) [0xAB])).blk.phase = .idle :=
  ⟨witness_inv_receiving, by decide⟩
theorem witness_ResultOfEachOperation_host :
    received.Inv ∧ (∃ t, exec .encode received = .next t) ∧
      (∃ t, exec .send received = .next t ∧ t.blk.phase = .idle) ∧ (∃ t, exec .reset received = .next t) :=
  ⟨witness_inv_received, ⟨_, rfl⟩, ⟨_, rfl, rfl⟩, ⟨_, rfl⟩⟩
theorem witness_EndOfOperationFrame :
    ((sending 0 false).blk.phase = .tx ∧ (linkTxStep (.accepted 19) (sending 0 false)).blk.phase = .idle) ∧
    ((receiving 0xC5 [] frameG).blk.phase = .rx ∧
      (linkRxStep (.delivered 10) (receiving 0xC5 [] frameG)).blk.phase = .idle) := by decide

theorem witness_InvariantHoldsAtPowerOn : Config.default.legal ∧ ({ nCmd := 9, nRsp := 6 } : Config).legal := by decide
theorem witness_EveryStepKeepsTheInvariant : received.Inv ∧ ∃ t, step received = .next t :=
  ⟨witness_inv_received, ⟨_, rfl⟩⟩
theorem witness_ReachableStatesSatisfyR38 : Config.default.legal ∧ ∃ s, Host.Core.run Sys2Proof.core 2
    (State.boot Config.default { incoming := frameG, outgoing := [] }
      [.fetch (.hostWrite 0x00 0x03), .linkRx (.delivered 10)]) = .next s :=
  ⟨by decide, _, rfl⟩
theorem witness_StepKeepsParameters : ∃ t, step (withLe (idle [])) = .next t := ⟨_, rfl⟩
theorem witness_StepRunsDecodedInstruction :
    ({ idle [] with agenda := [.fetch (.hostWrite 0x00 0x01)] } : State).agenda = .fetch (.hostWrite 0x00 0x01) :: [] ∧
    ({ idle [] with agenda := [.fetch (.hostWrite 0x00 0x01)] } : State).faulted = none ∧ (idle []).faulted = none ∧
    decode (idle []).cfg (.hostWrite 0x00 0x01) = .ok .encode ∧
    (idle []).cfg = Config.default ∧ decodeTableWord 16 0x04C0 = some (.wr 0x04 0xC0) := by decide
theorem witness_StepOfTheOtherAgents :
    (idle []).agenda = [] ∧ (idle []).faulted = none ∧ (∀ e, (next e).faulted = none) ∧
    (next (.fetch (.rspFrame [0x00]))).agenda = .fetch (.rspFrame [0x00]) :: [] ∧
    decode (idle []).cfg (.rspFrame [0x00]) = .error (.badFrame .invalidLength) ∧
    (next (.fetch (.hostWrite 0x00 0x05))).agenda = .fetch (.hostWrite 0x00 0x05) :: [] ∧
    decode (idle []).cfg (.hostWrite 0x00 0x05) = .error .reservedOpcode ∧
    (next (.fetch (.cmdFrame [0x00]))).agenda = .fetch (.cmdFrame [0x00]) :: [] ∧
    decode (idle []).cfg (.cmdFrame [0x00]) = .error (.badFrame .invalidLength) :=
  ⟨rfl, rfl, fun _ => rfl, by decide⟩
/-- The link, sensor, loss, flush and reset input clauses. -/
theorem witness_StepOfTheOtherAgents_events :
    (next (.linkTx (.accepted 1))).agenda = .linkTx (.accepted 1) :: [] ∧
    (next (.linkRx (.err err0))).agenda = .linkRx (.err err0) :: [] ∧
    (next (.sensor frameG)).agenda = .sensor frameG :: [] ∧
    (next (.lose 0)).agenda = .lose 0 :: [] ∧
    (next .flush).agenda = .flush :: [] ∧
    (next .resetInput).agenda = .resetInput :: [] := by decide
theorem witness_OnlyResetEndsABusyOperation :
    (sending 0 true).blk.status.busy = true ∧ isResponse (.wr 0x03 0x00) = false ∧ Instr.wr 0x03 0x00 ≠ .reset ∧
    (Instr.wr 0x03 0x00).wellFormed = true ∧ isResponse (.rd 0x07) = false ∧ Instr.rd 0x07 ≠ .reset := by decide
theorem witness_OnlyResetEndsABusyOperation_read : ∃ t, exec (.rd 0x07) (sending 0 true) = .next t := ⟨_, rfl⟩
theorem witness_StuckOperationWaitsForReset : (receiving 0xC5 [] []).isStuck := ⟨rfl, rfl, rfl⟩
theorem witness_OnlyHostActionsStopTheMachine :
    (idle []).faulted = none ∧ ∀ e ∈ [Event.sensor frameG, .linkRx (.delivered 10), .fetch (.rspFrame [0x00]), .resetInput],
      isHostAction e = false := by decide
theorem witness_OnlyEncodeRebuildsTxBuf : ∃ t, exec .encode (idle []) = .next t ∧ Instr.encode.wellFormed = true ∧
    t.blk.txBuf ≠ (idle []).blk.txBuf := ⟨_, rfl, by decide, by decide⟩
theorem witness_TypedResultOnlyAfterOk :
    (receiving 0xC0 [] frameG).blk.phase = .rx ∧
    (linkRxStep (.delivered 10) (receiving 0xC0 [] frameG)).blk.phase = .idle ∧
    (linkRxStep (.delivered 10) (receiving 0xC0 [] frameG)).port.typed = some (.measurement 123 45 0xABCD) := by decide

theorem witness_CommandFramesStartTheirExchange : received.blk.status.busy = false ∧ 9 ≤ received.cfg.nCmd := by decide
theorem witness_CommandFramesWhileBusyFault : (sending 0 true).blk.status.busy = true := by decide
theorem witness_LoadPayloadExpansion :
    (idle []).faulted = none ∧ (idle []).blk.status.busy = false ∧ (idle []).cfg.nCmd = 19 ∧ (idle []).blk.txPl.length = 13 ∧
    ([] : List Byte).length ≤ 13 ∧ (List.replicate 13 (0xFF : Byte)).length ≤ 13 := by
  decide
theorem witness_CommandFrameIsItsExpansion :
    received.faulted = none ∧ received.blk.status.busy = false ∧ received.cfg.nCmd = 19 ∧ received.blk.txPl.length = 13 := by decide
theorem witness_ListenAndWaitExpansions :
    received.faulted = none ∧ received.blk.status.busy = false ∧ (receiving 0xC5 [] []).isStuck :=
  ⟨rfl, rfl, rfl, rfl, rfl⟩
/-- A WAIT that ends: the report is delivered between two polls. -/
theorem witness_ListenAndWaitExpansions_ends :
    ∃ t, runWait 2 { receiving 0xC0 [] frameG with agenda := [.linkRx (.delivered 10)] } = .finished t := ⟨_, rfl⟩

theorem witness_DataReportAccepted :
    let s := receiving 0xC0 [] []
    s.cfg.nRsp = 10 ∧ s.blk.phase = .rx ∧ s.blk.rxCnt = 0 ∧ s.blk.rxBuf = [] ∧ s.link.incoming = [] ∧ s.blk.expType = s.cfg.typeData ∧
    (0x20 : Byte) = 0x7B + 0x00 + 0x2D + 0x00 + 0xAB + 0xCD ∧ s.cfg.devIdOrder = .be ∧
    (withLe s).cfg.devIdOrder = .le := by decide
theorem witness_RepliesAccepted :
    let s := receiving 0xC5 [] []
    s.cfg.nRsp = 10 ∧ s.blk.phase = .rx ∧ s.blk.rxCnt = 0 ∧ s.blk.rxBuf = [] ∧ s.link.incoming = [] ∧ s.blk.expType = s.cfg.typeReply ∧
    s.cfg.typeData ≠ s.cfg.typeReply ∧ (0x28 : Byte) = 0x07 + 0x0F + 0x07 + 0x0A + 0xA1 + 0x60 ∧
    s.port.command = none := by decide
/-- A set command was sent. -/
theorem witness_RepliesAccepted_to_set_command :
    let s := receivingAfter (.setSleep 0xA1 0x60)
    s.cfg.nRsp = 10 ∧ s.blk.phase = .rx ∧ s.blk.rxCnt = 0 ∧ s.blk.rxBuf = [] ∧ s.link.incoming = [] ∧
    s.blk.expType = s.cfg.typeReply ∧ s.cfg.typeData ≠ s.cfg.typeReply ∧
    (s.port.command = some s.blk.txBuf ∧ s.blk.txBuf[1]? = some s.cfg.typeCmd ∧ s.blk.txBuf[3]? = some 0x01 ∧
      s.blk.txBuf[2]? = some 0x06) := by decide
theorem witness_ResponsesRejected :
    let s := receiving 0xC5 [] []
    s.cfg.nRsp = 10 ∧ s.blk.phase = .rx ∧ s.blk.rxCnt = 0 ∧ s.blk.rxBuf = [] ∧ s.link.incoming = [] ∧
    (0x21 : Byte) ≠ 0x7B + 0x00 + 0x2D + 0x00 + 0xAB + 0xCD ∧
    ((0x20 : Byte) = 0x7B + 0x00 + 0x2D + 0x00 + 0xAB + 0xCD ∧ s.blk.expType ≠ s.cfg.typeData) := by decide
theorem witness_ReplyIsDecodedByTheCommandSent :
    let s := idle []
    s.blk.status.busy = false ∧ 9 ≤ s.cfg.nCmd ∧ s.cfg.nRsp = 10 ∧ s.link.incoming = [] ∧
    s.cfg.typeData ≠ s.cfg.typeReply ∧ (∀ k ∈ [8, 11], 1 ≤ k) ∧ [8, 11].sum = s.cfg.nCmd ∧
    (0x28 : Byte) = 0x07 + 0x0F + 0x07 + 0x0A + 0xA1 + 0x60 := by decide
theorem witness_UnsolicitedFramesWaitInTheStream :
    (idle []).blk.phase ≠ .rx ∧ encode Config.default (.dataReport 0x7B 0x00 0x2D 0x00 0xAB 0xCD 0x20) = .rspFrame frameG := by
  decide
theorem witness_ResponseIsSensorThenLink :
    (receiving 0xC0 (frameG.take 9) []).faulted = none ∧
    (receiving 0xC0 (frameG.take 9) []).blk.phase = .rx ∧
    (receiving 0xC0 (frameG.take 9) []).blk.rxCnt < (receiving 0xC0 (frameG.take 9) []).cfg.nRsp ∧
    encode Config.default (.dataReport 0x7B 0x00 0x2D 0x00 0xAB 0xCD 0x20) = .rspFrame frameG := by decide
theorem witness_UnknownReplyHasNoTypedResult :
    let s := receiving 0xC5 [] [0xAA, 0xC5, 0x04, 0x00, 0x00, 0x00, 0xA1, 0x60, 0x05, 0xAB]
    s.cfg.nRsp = 10 ∧ s.blk.phase = .rx ∧ s.blk.rxCnt = 0 ∧ s.blk.rxBuf = [] ∧ s.cfg.typeData ≠ s.cfg.typeReply ∧
    s.blk.expType = s.cfg.typeReply ∧ (0x04 : Byte) ≠ 0x02 ∧ (0x04 : Byte) ≠ 0x06 ∧ (0x04 : Byte) ≠ 0x07 ∧
    (0x04 : Byte) ≠ 0x08 ∧ s.link.incoming = encodeFrame s.cfg s.cfg.typeReply [0x04, 0x00, 0x00, 0x00] 0xA1 0x60 := by
  decide

end Sys2Proof.Tests
end

section
/-! SUPPORT. The scope of a step (00_scope.md R5, R18): which agent moves, what no step changes, and that a transport error
is opaque. Laws of the model's operations first, then the obligations. -/

namespace Sys2Proof.Machine

/-! ### What a step is, by the head of the agenda -/

theorem step_of_agenda_nil {s : State} (hf : s.faulted = none) (ha : s.agenda = []) : step s = .next s := by
  simp [step, hf, ha]

theorem step_of_agenda_cons {s : State} {ev : Event} {rest : List Event} (hf : s.faulted = none)
    (ha : s.agenda = ev :: rest) : step s = runEvent ev { s with agenda := rest } := by
  simp [step, hf, ha]

/-- A step that answers a next state is the head event's, or there is no event (R18, R19). -/
theorem step_next_cases {s t : State} (h : step s = .next t) :
    (s.agenda = [] ∧ t = s) ∨
    ∃ ev rest, s.agenda = ev :: rest ∧ runEvent ev { s with agenda := rest } = .next t := by
  cases hf : s.faulted with
  | some r => simp [step_faulted hf] at h
  | none =>
    cases ha : s.agenda with
    | nil =>
      rw [step_of_agenda_nil hf ha] at h
      cases h
      exact .inl ⟨rfl, rfl⟩
    | cons ev rest =>
      rw [step_of_agenda_cons hf ha, hf] at h
      exact .inr ⟨ev, rest, rfl, h⟩

theorem runEvent_fetch_ok (s : State) {tr : Transaction} {i : Instr} (h : decode s.cfg tr = .ok i) :
    runEvent (.fetch tr) s = exec i s := by
  simp [runEvent, h]

theorem runEvent_fetch_error (s : State) {tr : Transaction} {e : DecodeError} (h : decode s.cfg tr = .error e) :
    runEvent (.fetch tr) s = undecoded tr e s := by
  simp [runEvent, h]

theorem step_fetch_ok {s : State} {tr : Transaction} {rest : List Event} {i : Instr} (hf : s.faulted = none)
    (ha : s.agenda = .fetch tr :: rest) (hd : decode s.cfg tr = .ok i) : step s = exec i { s with agenda := rest } :=
  (step_of_agenda_cons hf ha).trans (runEvent_fetch_ok { s with agenda := rest } hd)

theorem step_fetch_error {s : State} {tr : Transaction} {rest : List Event} {e : DecodeError} (hf : s.faulted = none)
    (ha : s.agenda = .fetch tr :: rest) (hd : decode s.cfg tr = .error e) :
    step s = undecoded tr e { s with agenda := rest } :=
  (step_of_agenda_cons hf ha).trans (runEvent_fetch_error { s with agenda := rest } hd)

theorem decodeTableWord_eq_some {nbits w : Nat} {i : Instr} :
    decodeTableWord nbits w = some i ↔ decode Config.default (tableTransaction nbits w) = .ok i := by
  unfold decodeTableWord
  cases decode Config.default (tableTransaction nbits w) <;> simp

/-- Settles O40: the equation of a step whose event decodes, and a table word decodes as its transaction does. -/
theorem stepRunsDecodedInstruction : Obligations.StepRunsDecodedInstruction := by
  refine ⟨fun _ _ _ _ hf ha hd => step_fetch_ok hf ha hd, fun s nbits w i hf hc hw => ?_⟩
  have hd : decode (s.withFetchWord nbits w).cfg (tableTransaction nbits w) = .ok i := by
    rw [← decodeTableWord_eq_some.mp hw, ← hc]
    rfl
  exact step_fetch_ok (s := s.withFetchWord nbits w) hf rfl hd

/-- Settles O41: the equation of a step whose head event is known, for each event. -/
theorem stepOfTheOtherAgents : Obligations.StepOfTheOtherAgents := by
  intro s rest hf
  refine ⟨step_of_agenda_nil hf, ?linkTx, ?linkRx, ?sensor, ?lose, ?flush, ?resetInput, ?write, ?response, ?command⟩
  case linkTx => exact fun _ ha => step_of_agenda_cons hf ha
  case linkRx => exact fun _ ha => step_of_agenda_cons hf ha
  case sensor => exact fun _ ha => step_of_agenda_cons hf ha
  case lose => exact fun _ ha => step_of_agenda_cons hf ha
  case flush => exact fun ha => step_of_agenda_cons hf ha
  case resetInput => exact fun ha => step_of_agenda_cons hf ha
  case write => exact fun _ _ _ ha hd => step_fetch_error hf ha hd
  case response => exact fun _ _ ha hd => step_fetch_error hf ha hd
  case command => exact fun _ _ ha hd => step_fetch_error hf ha hd

/-! ### What an instruction that completes can change -/

/-- A guarded register operation that completes changed the block only. -/
theorem whenIdle_blk_next {s t : State} {b : Block} (h : whenIdle s (.next { s with blk := b }) = .next t) :
    ∃ b', t = { s with blk := b' } := by
  obtain ⟨-, ht⟩ := whenIdle_next.mp h
  cases ht
  exact ⟨b, rfl⟩

/-- A write to `CTRL` that completes changed the block only (R170 to R175). -/
theorem ctrlWrite_next {op : Byte} {s t : State} (h : ctrlWrite op s = .next t) : ∃ b, t = { s with blk := b } := by
  unfold ctrlWrite at h
  split at h
  · exact whenIdle_blk_next h
  split at h
  · exact whenIdle_blk_next h
  split at h
  · exact whenIdle_blk_next h
  split at h
  · exact whenIdle_blk_next h
  split at h
  · cases h
    exact ⟨_, rfl⟩
  · cases h

/-- A host write that completes changed the block only (R27, R170). -/
theorem execWr_blk_next {a v : Byte} {s t : State} (h : execWr a v s = .next t) : ∃ b, t = { s with blk := b } := by
  by_cases ha : regAt s.cfg a = some .ctrl
  · simp only [execWr, ha] at h
    exact ctrlWrite_next h
  · obtain ⟨r, -, -, -, ht⟩ := execWr_next h ha
    exact ⟨_, ht⟩

/-- Everything an instruction that completes can do: change the block only, read a register, or be the arrival of its
frame. -/
theorem exec_next_cases {i : Instr} {s t : State} (h : exec i s = .next t) :
    (∃ b, t = { s with blk := b }) ∨
    (∃ a, i = .rd a ∧ execRd a s = .next t) ∨
    (∃ bs, encode s.cfg i = .rspFrame bs ∧ t = arrive bs s) := by
  cases i with
  | reset =>
    cases h
    exact .inl ⟨_, rfl⟩
  | rd a => exact .inr (.inl ⟨a, rfl, h⟩)
  | wr a v => exact .inl (execWr_blk_next h)
  | encode | send | recv | xchg => exact .inl (whenIdle_blk_next h)
  | setReportingQuery | setReportingActive | setSleep | setWork | setWorkingPeriod | queryFirmware | queryData =>
    exact .inl (whenIdle_blk_next h)
  | dataReport | replyReportingMode | replyDeviceMode | replyWorkingPeriod | replyFirmware =>
    cases h
    exact .inr (.inr ⟨_, rfl, rfl⟩)

/-! ### What no step changes -/

/-- Two states of one run between two events: the same parameters, the same events to come. -/
def SameRun (s t : State) : Prop := t.cfg = s.cfg ∧ t.agenda = s.agenda

theorem linkTxStep_sameRun (o : WriteOutcome) (s : State) : SameRun s (linkTxStep o s) := by
  rcases linkTxStep_cases o s with h | ⟨-, _, h⟩ | ⟨-, _, -, -, h⟩ <;> rw [h] <;> exact ⟨rfl, rfl⟩

theorem linkRxStep_sameRun (o : ReadOutcome) (s : State) : SameRun s (linkRxStep o s) := by
  rcases linkRxStep_cases o s with h | ⟨-, _, h⟩ | ⟨-, _, -, -, -, h⟩ <;> rw [h] <;> exact ⟨rfl, rfl⟩

theorem arrive_sameRun (bs : List Byte) (s : State) : SameRun s (arrive bs s) := by
  rcases arrive_cases bs s with h | ⟨k, h⟩ <;> rw [h]
  · exact ⟨rfl, rfl⟩
  · exact linkRxStep_sameRun (.delivered k) (sensorAppend bs s)

theorem execRd_sameRun {a : Byte} {s t : State} (h : execRd a s = .next t) : SameRun s t := by
  obtain ⟨r, v, -, -, rfl⟩ := execRd_next h
  exact ⟨markRead_cfg r _, markRead_agenda r _⟩

theorem exec_sameRun {i : Instr} {s t : State} (h : exec i s = .next t) : SameRun s t := by
  rcases exec_next_cases h with ⟨_, rfl⟩ | ⟨_, -, hr⟩ | ⟨bs, -, rfl⟩
  · exact ⟨rfl, rfl⟩
  · exact execRd_sameRun hr
  · exact arrive_sameRun bs s

theorem undecoded_sameRun {tr : Transaction} {e : DecodeError} {s t : State} (h : undecoded tr e s = .next t) :
    SameRun s t := by
  cases tr with
  | rspFrame bs =>
    cases h
    exact arrive_sameRun bs s
  | hostRead | hostWrite | cmdFrame => cases h

theorem runEvent_sameRun {ev : Event} {s t : State} (h : runEvent ev s = .next t) : SameRun s t := by
  cases ev with
  | fetch tr =>
    cases hd : decode s.cfg tr with
    | ok i => exact exec_sameRun (runEvent_fetch_ok s hd ▸ h)
    | error e => exact undecoded_sameRun (runEvent_fetch_error s hd ▸ h)
  | linkTx o =>
    cases h
    exact linkTxStep_sameRun o s
  | linkRx o =>
    cases h
    exact linkRxStep_sameRun o s
  | sensor | lose | flush | resetInput =>
    cases h
    exact ⟨rfl, rfl⟩

/-- Settles O39: the step takes the head event off, and the event itself changes neither parameters nor agenda. -/
theorem stepKeepsParameters : Obligations.StepKeepsParameters := by
  intro s t h
  rcases step_next_cases h with ⟨ha, rfl⟩ | ⟨ev, rest, ha, hr⟩
  · exact ⟨rfl, by rw [ha, List.tail_nil]⟩
  · rw [ha]
    exact runEvent_sameRun hr

/-! ### A response frame in one step, and in two -/

/-- A run of the machine goes on after a step that answers. -/
theorem core_run_succ_of_next {s t : State} (n : Nat) (h : step s = .next t) :
    Host.Core.run Sys2Proof.core (n + 1) s = Host.Core.run Sys2Proof.core n t := by
  have hc : Sys2Proof.core.step s = .next t := h
  simp only [Host.Core.run, hc]

/-- An instruction encoded as a response frame is the arrival of that frame, which has ten bytes (R74). -/
theorem exec_of_encode_rspFrame {i : Instr} {s : State} {bs : List Byte} (h : encode s.cfg i = .rspFrame bs) :
    exec i s = .next (arrive bs s) ∧ bs.length = 10 := by
  cases i with
  | dataReport | replyReportingMode | replyDeviceMode | replyWorkingPeriod | replyFirmware =>
    cases h
    exact ⟨rfl, rfl⟩
  | encode | send | recv | xchg | reset | rd | wr => cases h
  | setReportingQuery | setReportingActive | setSleep | setWork | setWorkingPeriod | queryFirmware | queryData =>
    cases h

/-- Bytes that arrive while a reception needs some are read in one LINK_RX step (R183). -/
theorem arrive_eq_linkRxStep {bs : List Byte} {s : State} (hcnt : s.blk.rxCnt < s.cfg.nRsp) (hbs : bs ≠ []) :
    arrive bs s =
      linkRxStep (.delivered (min (s.cfg.nRsp - s.blk.rxCnt) (s.link.incoming.length + bs.length)))
        (sensorAppend bs s) := by
  have hk : rxAvailable (sensorAppend bs s) =
      min (s.cfg.nRsp - s.blk.rxCnt) (s.link.incoming.length + bs.length) := by
    simp [rxAvailable]
  have hpos : rxAvailable (sensorAppend bs s) ≠ 0 := by
    have := List.length_pos_iff.mpr hbs
    omega
  rw [arrive, receiveAvailable, if_neg hpos, hk]

/-- Settles O56: the first step appends the frame, and the second is the LINK_RX step of the frame's arrival. -/
theorem responseIsSensorThenLink : Obligations.ResponseIsSensorThenLink := by
  intro s i bs hf _ hcnt hi k s'
  obtain ⟨hexec, hlen⟩ := exec_of_encode_rspFrame hi
  have hbs : bs ≠ [] := List.ne_nil_of_length_pos (by omega)
  have hsensor : step s' = .next (sensorAppend bs { s with agenda := .linkRx (.delivered k) :: s.agenda }) :=
    step_of_agenda_cons (s := s') hf rfl
  have hlink : step (sensorAppend bs { s with agenda := .linkRx (.delivered k) :: s.agenda }) =
      .next (linkRxStep (.delivered k) (sensorAppend bs s)) :=
    step_of_agenda_cons (s := sensorAppend bs { s with agenda := .linkRx (.delivered k) :: s.agenda }) hf rfl
  rw [core_run_succ_of_next 1 hsensor, core_run_succ_of_next 0 hlink, hexec, arrive_eq_linkRxStep hcnt hbs]
  rfl

end Sys2Proof.Machine
end

section
/-! SUPPORT. A transport error is opaque (00_scope.md R5, 10_state.md R32): each operation of the model commutes with a
renaming of the errors, from the block's operations up to the step. -/

namespace Sys2Proof.Machine

/-! ### The renaming of the parts of a state -/

/-- A block with its error renamed. -/
def Block.mapErr (f : TErr → TErr) (b : Block) : Block := { b with terr := b.terr.map (TErrKind.mapErr f) }

/-- A draw of LINK_TX with its error renamed. -/
def WriteOutcome.mapErr (f : TErr → TErr) : WriteOutcome → WriteOutcome
  | .accepted k => .accepted k
  | .err e => .err (f e)

/-- A draw of LINK_RX with its error renamed. -/
def ReadOutcome.mapErr (f : TErr → TErr) : ReadOutcome → ReadOutcome
  | .delivered k => .delivered k
  | .err e => .err (f e)

section Renaming
variable (f : TErr → TErr)

section Parts
variable (s : State) (b : Block)

theorem mapErr_blk : (s.mapErr f).blk = s.blk.mapErr f := rfl
@[simp] theorem mapErr_linkTx (o : WriteOutcome) : (Event.linkTx o).mapErr f = .linkTx (o.mapErr f) := by cases o <;> rfl
@[simp] theorem mapErr_linkRx (o : ReadOutcome) : (Event.linkRx o).mapErr f = .linkRx (o.mapErr f) := by cases o <;> rfl

@[simp] theorem Block.mapErr_rxBuf : (b.mapErr f).rxBuf = b.rxBuf := rfl

end Parts

/-! ### The operations on the block -/

section BlockOperations
variable (b : Block) (c : Config)

theorem writeReg_mapErr (r : Reg) (v : Byte) : writeReg r v (b.mapErr f) = (writeReg r v b).mapErr f := by
  cases r <;> rfl

/-- No register read tells one error from another: `TERR` reads as the kind only (R32). -/
theorem readReg_mapErr (r : Reg) : readReg r (b.mapErr f) = readReg r b := by
  cases r with
  | terr => simp [readReg, Block.mapErr, Function.comp_def]
  | _ => rfl

theorem txProgress_mapErr (k : Nat) : txProgress c k (b.mapErr f) = (txProgress c k b).mapErr f := by
  simp only [txProgress, apply_ite (Block.mapErr f)]
  rfl

theorem rxComplete_mapErr : rxComplete c (b.mapErr f) = (rxComplete c b).mapErr f := by
  simp only [rxComplete, Block.mapErr_rxBuf]
  split <;> rfl

theorem rxProgress_mapErr (bs : List Byte) : rxProgress c bs (b.mapErr f) = (rxProgress c bs b).mapErr f := by
  simp only [rxProgress, apply_ite (Block.mapErr f), ← rxComplete_mapErr]
  rfl

end BlockOperations

/-! ### The link steps -/

section LinkSteps
variable (s : State)

theorem linkTxStep_mapErr (o : WriteOutcome) :
    linkTxStep (o.mapErr f) (s.mapErr f) = (linkTxStep o s).mapErr f := by
  cases hph : s.blk.phase with
  | idle | rx => simp [linkTxStep, hph]
  | tx =>
    cases o with
    | err e =>
      simp only [linkTxStep, WriteOutcome.mapErr, mapErr_phase, hph]
      rfl
    | accepted k =>
      cases k with
      | zero =>
        simp only [linkTxStep, WriteOutcome.mapErr, mapErr_phase, hph]
        rfl
      | succ k =>
        simp only [linkTxStep, WriteOutcome.mapErr, mapErr_phase, hph, apply_ite (State.mapErr f)]
        rw [mapErr_blk, txProgress_mapErr]
        rfl

theorem linkRxStep_mapErr (o : ReadOutcome) :
    linkRxStep (o.mapErr f) (s.mapErr f) = (linkRxStep o s).mapErr f := by
  cases hph : s.blk.phase with
  | idle | tx => simp [linkRxStep, hph]
  | rx =>
    cases o with
    | err e =>
      simp only [linkRxStep, ReadOutcome.mapErr, mapErr_phase, hph]
      rfl
    | delivered k =>
      cases k with
      | zero =>
        simp only [linkRxStep, ReadOutcome.mapErr, mapErr_phase, hph]
        rfl
      | succ k =>
        simp only [linkRxStep, ReadOutcome.mapErr, mapErr_phase, hph, apply_ite (State.mapErr f)]
        rw [mapErr_blk, rxProgress_mapErr]
        rfl

theorem arrive_mapErr (bs : List Byte) : arrive bs (s.mapErr f) = (arrive bs s).mapErr f := by
  have hs : sensorAppend bs (s.mapErr f) = (sensorAppend bs s).mapErr f := rfl
  have hk : rxAvailable ((sensorAppend bs s).mapErr f) = rxAvailable (sensorAppend bs s) := rfl
  simp only [arrive, receiveAvailable, hs, hk]
  split
  · rfl
  · exact linkRxStep_mapErr f (sensorAppend bs s) (.delivered (rxAvailable (sensorAppend bs s)))

end LinkSteps

/-! ### The instructions -/

section Instructions
variable (s : State)

/-- A guarded register operation commutes with the renaming where its effect on the block does. -/
theorem whenIdle_blk_mapErr {b b' : Block} (h : b' = b.mapErr f) :
    whenIdle (s.mapErr f) (.next { s.mapErr f with blk := b' }) =
      mapErrResult f (whenIdle s (.next { s with blk := b })) := by
  cases hb : s.blk.status.busy with
  | false =>
    rw [whenIdle_idle _ hb, whenIdle_idle (s := s.mapErr f) _ hb, h]
    rfl
  | true =>
    rw [whenIdle_busy _ hb, whenIdle_busy (s := s.mapErr f) _ hb]
    rfl

theorem execEncode_mapErr : execEncode (s.mapErr f) = mapErrResult f (execEncode s) := whenIdle_blk_mapErr f s rfl

theorem execSend_mapErr : execSend (s.mapErr f) = mapErrResult f (execSend s) := by
  refine whenIdle_blk_mapErr f s ?_
  rw [apply_ite (Block.mapErr f)]
  rfl

theorem execRecv_mapErr : execRecv (s.mapErr f) = mapErrResult f (execRecv s) := whenIdle_blk_mapErr f s rfl

theorem execXchg_mapErr : execXchg (s.mapErr f) = mapErrResult f (execXchg s) := whenIdle_blk_mapErr f s rfl

theorem runCommand_mapErr (sub rw arg id0 id1 exp : Byte) :
    runCommand sub rw arg id0 id1 exp (s.mapErr f) = mapErrResult f (runCommand sub rw arg id0 id1 exp s) :=
  whenIdle_blk_mapErr f s rfl

theorem ctrlWrite_mapErr (op : Byte) : ctrlWrite op (s.mapErr f) = mapErrResult f (ctrlWrite op s) := by
  unfold ctrlWrite
  split
  · exact execEncode_mapErr f s
  split
  · exact execSend_mapErr f s
  split
  · exact execRecv_mapErr f s
  split
  · exact execXchg_mapErr f s
  split <;> rfl

theorem markRead_mapErr (r : Reg) : markRead r (s.mapErr f) = (markRead r s).mapErr f := by
  simp only [markRead, apply_ite (State.mapErr f)]
  rfl

theorem execRd_mapErr (a : Byte) : execRd a (s.mapErr f) = mapErrResult f (execRd a s) := by
  simp only [execRd, mapErr_cfg, mapErr_blk, readReg_mapErr]
  cases regAt s.cfg a with
  | none => rfl
  | some r =>
    cases hv : readReg r s.blk with
    | none => simp only [hv]; rfl
    | some v =>
      simp only [hv, mapErrResult]
      exact congrArg _ (markRead_mapErr f { s with port := { s.port with rdData := some v } } r)

theorem execWr_mapErr (a v : Byte) : execWr a v (s.mapErr f) = mapErrResult f (execWr a v s) := by
  simp only [execWr, mapErr_cfg, mapErr_blk, writeReg_mapErr]
  split
  · rfl
  · exact ctrlWrite_mapErr f s v
  · split
    · exact whenIdle_blk_mapErr f s rfl
    · rfl

theorem exec_mapErr (i : Instr) : exec i (s.mapErr f) = mapErrResult f (exec i s) := by
  cases i with
  | encode => exact execEncode_mapErr f s
  | send => exact execSend_mapErr f s
  | recv => exact execRecv_mapErr f s
  | xchg => exact execXchg_mapErr f s
  | reset => rfl
  | rd a => exact execRd_mapErr f s a
  | wr a v => exact execWr_mapErr f s a v
  | setReportingQuery | setReportingActive | setSleep | setWork | setWorkingPeriod | queryFirmware | queryData =>
    exact runCommand_mapErr f s _ _ _ _ _ _
  | dataReport | replyReportingMode | replyDeviceMode | replyWorkingPeriod | replyFirmware =>
    exact congrArg _ (arrive_mapErr f s _)

end Instructions

/-! ### The step -/

section Step
variable (s : State)

theorem undecoded_mapErr (tr : Transaction) (e : DecodeError) :
    undecoded tr e (s.mapErr f) = mapErrResult f (undecoded tr e s) := by
  cases tr with
  | rspFrame bs => exact congrArg _ (arrive_mapErr f s bs)
  | hostRead | hostWrite | cmdFrame => rfl

theorem runEvent_mapErr (ev : Event) : runEvent (ev.mapErr f) (s.mapErr f) = mapErrResult f (runEvent ev s) := by
  cases ev with
  | fetch tr =>
    cases hd : decode s.cfg tr with
    | ok i =>
      rw [runEvent_fetch_ok s hd, ← exec_mapErr]
      exact runEvent_fetch_ok (s.mapErr f) hd
    | error e =>
      rw [runEvent_fetch_error s hd, ← undecoded_mapErr]
      exact runEvent_fetch_error (s.mapErr f) hd
  | linkTx o =>
    rw [mapErr_linkTx]
    exact congrArg _ (linkTxStep_mapErr f s o)
  | linkRx o =>
    rw [mapErr_linkRx]
    exact congrArg _ (linkRxStep_mapErr f s o)
  | sensor | lose | flush | resetInput => rfl

end Step

end Renaming

/-- Settles O58: the same event heads both agendas, up to the renaming, and its step commutes with the renaming. -/
theorem transportErrorIsOpaque : Obligations.TransportErrorIsOpaque := by
  intro f s
  cases hf : s.faulted with
  | some r =>
    rw [step_faulted hf, step_faulted (s := s.mapErr f) hf]
    rfl
  | none =>
    cases ha : s.agenda with
    | nil =>
      have ha' : (s.mapErr f).agenda = [] := by rw [mapErr_agenda, ha, List.map_nil]
      rw [step_of_agenda_nil hf ha, step_of_agenda_nil (s := s.mapErr f) hf ha']
      rfl
    | cons ev rest =>
      have ha' : (s.mapErr f).agenda = ev.mapErr f :: rest.map (Event.mapErr f) := by
        rw [mapErr_agenda, ha, List.map_cons]
      rw [step_of_agenda_cons hf ha, step_of_agenda_cons (s := s.mapErr f) hf ha']
      exact runEvent_mapErr f { s with agenda := rest } ev

end Sys2Proof.Machine
end

section
/-! SUPPORT. The register map and the host's accesses (10_state.md R40 to R42, 43_host_operations.md R176): which register
an address names, what a read and a write of it answer, and the obligations about them. -/

namespace Sys2Proof.Machine

/-! ### Addresses and registers -/

@[simp] theorem Reg.txPl_addr_toNat (i : Fin 16) : (Reg.txPl i).addr.toNat = 0x10 + i.val := by
  simp only [Reg.addr, BitVec.toNat_ofNat]
  omega

@[simp] theorem Reg.txBuf_addr_toNat (i : Fin 32) : (Reg.txBuf i).addr.toNat = 0x20 + i.val := by
  simp only [Reg.addr, BitVec.toNat_ofNat]
  omega

@[simp] theorem Reg.rxBuf_addr_toNat (i : Fin 16) : (Reg.rxBuf i).addr.toNat = 0x40 + i.val := by
  simp only [Reg.addr, BitVec.toNat_ofNat]
  omega

@[simp] theorem Reg.rxPl_addr_toNat (i : Fin 4) : (Reg.rxPl i).addr.toNat = 0x51 + i.val := by
  simp only [Reg.addr, BitVec.toNat_ofNat]
  omega

theorem regPlace_addr (r : Reg) : regPlace r.addr = some r := by
  cases r with
  | txPl i => revert i; decide
  | txBuf i => revert i; decide
  | rxBuf i => revert i; decide
  | rxPl i => revert i; decide
  | ctrl | status | phase | txType | expType | txId0 | txId1 | txPtr | rxCnt | terr | rxType | rxId0 | rxId1 => rfl

/-- A register stands at the address it was found at: R40's table, read at each of the 256 addresses. -/
theorem addr_of_regPlace : ∀ (a : Byte) (r : Reg), regPlace a = some r → r.addr = a := by
  have h : ∀ a : Byte, ∀ r ∈ regPlace a, r.addr = a := by decide
  exact h

theorem regAt_eq_some {c : Config} {a : Byte} {r : Reg} : regAt c a = some r ↔ r.addr = a ∧ r.present c = true := by
  rw [regAt, Option.filter_eq_some_iff]
  constructor
  · exact fun ⟨hp, hc⟩ => ⟨addr_of_regPlace _ _ hp, hc⟩
  · rintro ⟨rfl, hc⟩
    exact ⟨regPlace_addr r, hc⟩

theorem regAt_addr {c : Config} {r : Reg} (h : r.present c = true) : regAt c r.addr = some r := regAt_eq_some.mpr ⟨rfl, h⟩

/-- The map depends on the two frame lengths only, so at R40's lengths it is the default one. -/
theorem regAt_eq_default {c : Config} (hc : c.nCmd = 19) (hr : c.nRsp = 10) : regAt c = regAt Config.default := by
  have hp : Reg.present c = Reg.present Config.default := by
    obtain ⟨_, _, _, _, _, _, _, nCmd, nRsp⟩ := c
    cases hc
    cases hr
    funext r
    cases r <;> rfl
  funext a
  rw [regAt, regAt, hp]

/-- The reserved addresses: the gaps of R40's table. -/
def IsReservedAddr (a : Byte) : Prop :=
  (0x0A ≤ a.toNat ∧ a.toNat ≤ 0x0F) ∨ (0x1D ≤ a.toNat ∧ a.toNat ≤ 0x1F) ∨ (0x33 ≤ a.toNat ∧ a.toNat ≤ 0x3F) ∨
  (0x4A ≤ a.toNat ∧ a.toNat ≤ 0x4F) ∨ 0x57 ≤ a.toNat

theorem regAt_eq_none {c : Config} (hc : c.nCmd = 19) (hr : c.nRsp = 10) (a : Byte) : regAt c a = none ↔ IsReservedAddr a := by
  rw [regAt_eq_default hc hr, IsReservedAddr]
  revert a
  decide

/-- Settles O12: `regAt` inverts the addresses, and its gaps are the table's. -/
theorem registerMapAddresses : Obligations.RegisterMapAddresses := by
  refine ⟨fun _ _ => regAt_addr, fun _ _ _ => regAt_eq_some.mp, Reg.txPl_addr_toNat, Reg.txBuf_addr_toNat,
    Reg.rxBuf_addr_toNat, Reg.rxPl_addr_toNat, fun c hc hr => ⟨?_, ?_, ?_, ?_, regAt_eq_none hc hr⟩⟩
  · simp [Reg.present, Config.pCmd, hc]
  · simp [Reg.present, hc]
  · simp [Reg.present, hr]
  · simp only [Reg.present, Config.pRsp, hr, decide_eq_true_eq]
    omega

/-! ### The access column of the map, by address -/

theorem Reg.isConfig_iff_addr (r : Reg) :
    r.isConfig = true ↔ (0x03 ≤ r.addr.toNat ∧ r.addr.toNat ≤ 0x06) ∨ (0x10 ≤ r.addr.toNat ∧ r.addr.toNat ≤ 0x1F) := by
  cases r with
  | txPl i | txBuf i | rxBuf i | rxPl i => simp [Reg.isConfig]; omega
  | ctrl | status | phase | txType | expType | txId0 | txId1 | txPtr | rxCnt | terr | rxType | rxId0 | rxId1 => decide

theorem Reg.isField_iff_addr (r : Reg) : r.isField = true ↔ 0x50 ≤ r.addr.toNat ∧ r.addr.toNat ≤ 0x56 := by
  cases r with
  | txPl i | txBuf i | rxBuf i | rxPl i => simp [Reg.isField]; omega
  | ctrl | status | phase | txType | expType | txId0 | txId1 | txPtr | rxCnt | terr | rxType | rxId0 | rxId1 => decide

/-- Only `CTRL` stands at address 0x00, whatever the frame lengths (R33, R40). -/
theorem regAt_eq_ctrl {c : Config} {a : Byte} : regAt c a = some .ctrl ↔ a = 0x00 := by
  rw [regAt_eq_some]
  exact ⟨fun ⟨h, _⟩ => h.symm, fun h => ⟨h.symm, rfl⟩⟩

/-- An address outside the gaps of R40's table names a register. -/
theorem exists_regAt {c : Config} (hc : c.nCmd = 19) (hr : c.nRsp = 10) {a : Byte} (ha : ¬ IsReservedAddr a) :
    ∃ r, regAt c a = some r ∧ r.addr = a := by
  obtain ⟨r, h⟩ := Option.ne_none_iff_exists'.mp (mt (regAt_eq_none hc hr a).mp ha)
  exact ⟨r, h, (regAt_eq_some.mp h).1⟩

/-! ### What an access answers (R41, R176) -/

section Access
variable {s : State} {a v : Byte} {r : Reg}

theorem execRd_reserved (h : regAt s.cfg a = none) : execRd a s = .fault .reserved := by simp [execRd, h]

theorem execRd_noValue (h : regAt s.cfg a = some r) (hv : readReg r s.blk = none) : execRd a s = .fault .noValue := by
  simp [execRd, h, hv]

theorem execRd_value (h : regAt s.cfg a = some r) (hv : readReg r s.blk = some v) :
    execRd a s = .next (markRead r { s with port := { s.port with rdData := some v } }) := by
  simp [execRd, h, hv]

theorem execWr_reserved (h : regAt s.cfg a = none) : execWr a v s = .fault .reserved := by simp [execWr, h]

theorem execWr_ctrl (h : regAt s.cfg a = some .ctrl) : execWr a v s = ctrlWrite v s := by simp [execWr, h]

/-- A write to a register other than `CTRL` goes by the access column (R41). -/
theorem execWr_register (h : regAt s.cfg a = some r) (hc : r ≠ .ctrl) : execWr a v s =
    if r.isConfig then whenIdle s (.next { s with blk := writeReg r v s.blk }) else .fault .readOnly := by
  unfold execWr
  rw [h]
  split
  next heq => cases heq
  next heq => exact absurd (Option.some.inj heq) hc
  next heq => rw [Option.some.inj heq]

theorem execWr_config (h : regAt s.cfg a = some r) (hr : r.isConfig = true) :
    execWr a v s = whenIdle s (.next { s with blk := writeReg r v s.blk }) := by
  have hc : r ≠ .ctrl := by
    rintro rfl
    cases hr
  rw [execWr_register h hc, if_pos hr]

theorem execWr_readOnly (h : regAt s.cfg a = some r) (hr : r.isConfig = false) (hc : r ≠ .ctrl) :
    execWr a v s = .fault .readOnly := by
  rw [execWr_register h hc, if_neg (Bool.eq_false_iff.mp hr)]

/-- A read of a register of the map completes exactly when the register holds a value (R41, R52). -/
theorem exists_execRd_next (h : regAt s.cfg a = some r) :
    (∃ t, execRd a s = .next t) ↔ (readReg r s.blk).isSome = true := by
  cases hv : readReg r s.blk with
  | none => simp [execRd_noValue h hv]
  | some v => simp [execRd_value h hv]

/-- The read by address of a register that is none of the field registers: no mark (R42). -/
theorem execRd_addr (hp : r.present s.cfg = true) (hf : r.isField = false) (hv : readReg r s.blk = some v) :
    execRd r.addr s = .next { s with port := { s.port with rdData := some v } } := by
  rw [execRd_value (regAt_addr hp) hv, markRead, hf]
  rfl

/-- The read by address of a field register: the mark of R256 while busy. -/
theorem execRd_field_addr (hp : r.present s.cfg = true) (hf : r.isField = true) (hv : readReg r s.blk = some v) :
    execRd r.addr s = .next { s with
      port := { s.port with rdData := some v }
      faulted := if s.blk.status.busy then some .noValue else s.faulted } := by
  rw [execRd_value (regAt_addr hp) hv, markRead, hf]
  cases s.blk.status.busy <;> rfl

end Access

/-- A field register holds no value while `RXVALID` is 0 (R30). -/
theorem readReg_field_invalid {r : Reg} {b : Block} (hf : r.isField = true) (hv : b.status.rxValid = false) :
    readReg r b = none := by
  cases r with
  | rxType | rxPl | rxId0 | rxId1 => simp [readReg, hv]
  | ctrl | status | phase | txType | expType | txId0 | txId1 | txPtr | rxCnt | terr | txPl | txBuf | rxBuf => cases hf

/-! ### Opcodes written to `CTRL` (R76, R77, R170) -/

theorem isOpcode_eq_true {op : Byte} :
    isOpcode op = true ↔ op = opEncode ∨ op = opSend ∨ op = opRecv ∨ op = opXchg ∨ op = opReset := by
  simp only [isOpcode, Bool.or_eq_true, beq_iff_eq, or_assoc]

theorem isOpcode_of_reserved {op : Byte} (h : op = 0x00 ∨ (0x05 ≤ op.toNat ∧ op.toNat ≤ 0x7F) ∨ 0x81 ≤ op.toNat) :
    isOpcode op = false := by
  rw [← Bool.not_eq_true, isOpcode_eq_true]
  simp only [opEncode, opSend, opRecv, opXchg, opReset]
  bv_omega

theorem ctrlWrite_reserved {op : Byte} {s : State} (h : isOpcode op = false) : ctrlWrite op s = .fault .reservedOpcode := by
  simp_all [isOpcode, ctrlWrite]

theorem decodeOpcode_reserved {op : Byte} (h : isOpcode op = false) : decodeOpcode op = .error .reservedOpcode := by
  simp_all [isOpcode, decodeOpcode]

theorem exists_whenIdle_next {s u : State} : (∃ t, whenIdle s (.next u) = .next t) ↔ (!s.blk.status.busy) = true := by
  simp [whenIdle_next]

/-- A write to `CTRL` completes for a defined opcode, and for one other than RESET when the block is idle (R41, R77). -/
theorem exists_ctrlWrite_next {op : Byte} {s : State} :
    (∃ t, ctrlWrite op s = .next t) ↔ (isOpcode op && (op == opReset || !s.blk.status.busy)) = true := by
  by_cases h : isOpcode op = true
  · rcases isOpcode_eq_true.mp h with rfl | rfl | rfl | rfl | rfl
    · exact exists_whenIdle_next
    · exact exists_whenIdle_next
    · exact exists_whenIdle_next
    · exact exists_whenIdle_next
    · exact ⟨fun _ => rfl, fun _ => ⟨_, rfl⟩⟩
  · rw [Bool.not_eq_true] at h
    simp [ctrlWrite_reserved h, h]

/-- Settles O18: each instruction is guarded by the busy rule, by the map's access column, or by nothing. -/
theorem instructionCompletesExactlyWhenAllowed : Obligations.InstructionCompletesExactlyWhenAllowed := by
  intro i s
  cases i with
  | encode | send | recv | xchg => exact exists_whenIdle_next
  | setReportingQuery | setReportingActive | setSleep | setWork | setWorkingPeriod | queryFirmware | queryData =>
    exact exists_whenIdle_next
  | reset => exact ⟨fun _ => rfl, fun _ => ⟨_, rfl⟩⟩
  | dataReport | replyReportingMode | replyDeviceMode | replyWorkingPeriod | replyFirmware =>
    exact ⟨fun _ => rfl, fun _ => ⟨_, rfl⟩⟩
  | rd a =>
    cases hr : regAt s.cfg a with
    | none => simp [exec, allowed, execRd_reserved, hr]
    | some r =>
      simp only [allowed, hr]
      exact exists_execRd_next hr
  | wr a v =>
    cases hr : regAt s.cfg a with
    | none => simp [exec, allowed, execWr_reserved, hr]
    | some r =>
      by_cases hc : r = .ctrl
      · subst hc
        simpa only [exec, allowed, hr, execWr_ctrl] using exists_ctrlWrite_next
      · cases hcfg : r.isConfig with
        | true => simpa [exec, allowed, hr, hcfg, execWr_config hr hcfg] using exists_whenIdle_next
        | false => simp [exec, allowed, hr, hcfg, execWr_readOnly hr hcfg hc]

/-- Settles O14: the register of each address by its access class, and what it answers. -/
theorem hostAccessFaultReasons : Obligations.HostAccessFaultReasons := by
  intro s hc hr
  refine ⟨?reserved, ?readOnly, ?configBusy, ?opBusy, ?reservedOpcode, ?terr, ?rxBuf, ?field⟩
  case reserved =>
    intro a v ha
    have hn := (regAt_eq_none hc hr a).mpr ha
    exact ⟨execRd_reserved hn, execWr_reserved hn⟩
  case readOnly =>
    intro a v ha
    obtain ⟨r, h, rfl⟩ := exists_regAt hc hr (a := a) (by unfold IsReservedAddr; bv_omega)
    refine execWr_readOnly h ?_ ?_
    · rw [← Bool.not_eq_true, Reg.isConfig_iff_addr]
      bv_omega
    · rintro rfl
      exact absurd ha (by decide)
  case configBusy =>
    intro a v hb ha
    obtain ⟨r, h, rfl⟩ := exists_regAt hc hr (a := a) (by unfold IsReservedAddr; bv_omega)
    exact (execWr_config h (r.isConfig_iff_addr.mpr (by omega))).trans (whenIdle_busy _ hb)
  case opBusy =>
    rintro hb op (rfl | rfl | rfl | rfl) <;> exact whenIdle_busy _ hb
  case reservedOpcode =>
    intro op hop
    exact runEvent_fetch_error s (decodeOpcode_reserved (isOpcode_of_reserved hop))
  case terr =>
    exact fun hres => execRd_noValue (regAt_addr (r := .terr) rfl) (if_neg hres)
  case rxBuf =>
    intro i hi
    have hp : (Reg.rxBuf ⟨i.val, by omega⟩).present s.cfg = true := by simp [Reg.present, hr]
    exact execRd_noValue (regAt_addr hp) (if_neg (Nat.not_lt.mpr hi))
  case field =>
    intro a hv h50 h56
    obtain ⟨r, h, rfl⟩ := exists_regAt hc hr (a := a) (by unfold IsReservedAddr; bv_omega)
    exact execRd_noValue h (readReg_field_invalid (r.isField_iff_addr.mpr ⟨h50, h56⟩) hv)

/-- A byte of two nibbles, the low one as a number and the high one bit by bit. -/
theorem append_nibbles (hi lo : BitVec 4) :
    (hi ++ lo).toNat % 16 = lo.toNat ∧ ∀ i, (hi ++ lo).getLsbD (4 + i) = hi.getLsbD i := by
  constructor
  · have hlo : lo.toNat < 2 ^ 4 := lo.isLt
    rw [BitVec.toNat_append, ← Nat.shiftLeft_add_eq_or_of_lt hlo, Nat.shiftLeft_eq]
    omega
  · intro i
    rw [BitVec.getLsbD_append, if_neg (by omega), Nat.add_sub_cancel_left]

/-- The four flags of `STATUS` as its high nibble (R25). -/
theorem flags_getLsbD (chain rxValid txValid busy : Bool) :
    let hi : BitVec 4 := BitVec.ofBool chain ++ BitVec.ofBool rxValid ++ BitVec.ofBool txValid ++ BitVec.ofBool busy
    hi.getLsbD 0 = busy ∧ hi.getLsbD 1 = txValid ∧ hi.getLsbD 2 = rxValid ∧ hi.getLsbD 3 = chain := by
  revert chain rxValid txValid busy
  decide

/-- `STATUS` as the host reads it (R25). -/
theorem Status.toByte_bits (st : Status) :
    st.toByte.toNat % 16 = st.result.code.toNat ∧ st.toByte.getLsbD 4 = st.busy ∧ st.toByte.getLsbD 5 = st.txValid ∧
      st.toByte.getLsbD 6 = st.rxValid ∧ st.toByte.getLsbD 7 = st.chain := by
  obtain ⟨hlo, hhi⟩ := append_nibbles (BitVec.ofBool st.chain ++ BitVec.ofBool st.rxValid ++ BitVec.ofBool st.txValid ++
    BitVec.ofBool st.busy) st.result.code
  obtain ⟨h0, h1, h2, h3⟩ := flags_getLsbD st.chain st.rxValid st.txValid st.busy
  exact ⟨hlo, (hhi 0).trans h0, (hhi 1).trans h1, (hhi 2).trans h2, (hhi 3).trans h3⟩

/-- Settles O15: each address is its register's, and the register reads as the rule of its name says. -/
theorem readsOfHeldValues : Obligations.ReadsOfHeldValues := by
  intro s reads
  refine ⟨execRd_addr (r := .ctrl) rfl rfl rfl,
    ⟨s.blk.status.toByte, execRd_addr (r := .status) rfl rfl rfl, Status.toByte_bits _⟩, ?idle, ?tx, ?rx,
    execRd_addr (r := .txType) rfl rfl rfl, execRd_addr (r := .expType) rfl rfl rfl,
    execRd_addr (r := .txId0) rfl rfl rfl, execRd_addr (r := .txId1) rfl rfl rfl,
    execRd_addr (r := .txPtr) rfl rfl rfl, execRd_addr (r := .rxCnt) rfl rfl rfl, ?terr, ?txPl, ?txBuf, ?rxBuf, ?field⟩
  case idle => exact fun h => execRd_addr (r := .phase) rfl rfl (by rw [readReg, h]; rfl)
  case tx => exact fun h => execRd_addr (r := .phase) rfl rfl (by rw [readReg, h]; rfl)
  case rx => exact fun h => execRd_addr (r := .phase) rfl rfl (by rw [readReg, h]; rfl)
  case terr =>
    intro hres
    have hread : ∀ w, s.blk.terr = some w → reads 0x09 w.toByte := fun w hw =>
      execRd_addr (r := .terr) rfl rfl (by rw [readReg, if_pos hres, hw]; rfl)
    exact ⟨fun e => hread (.transport e), hread .readZero, hread .writeZero⟩
  case txPl => exact fun i v hi hv => execRd_addr (r := .txPl i) (decide_eq_true hi) rfl hv
  case txBuf => exact fun i v hi hv => execRd_addr (r := .txBuf i) (decide_eq_true hi) rfl hv
  case rxBuf =>
    exact fun i v hi hcnt hv => execRd_addr (r := .rxBuf i) (decide_eq_true hi) rfl ((if_pos hcnt).trans hv)
  case field =>
    intro f hval hf
    refine ⟨execRd_field_addr (r := .rxType) rfl rfl ?_, execRd_field_addr (r := .rxId0) rfl rfl ?_,
      execRd_field_addr (r := .rxId1) rfl rfl ?_, fun i v hi hv => execRd_field_addr (r := .rxPl i) (decide_eq_true hi) rfl ?_⟩
    · simp [readReg, hval, hf]
    · simp [readReg, hval, hf]
    · simp [readReg, hval, hf]
    · simp [readReg, hval, hf, hv]

/-! ### Configuration writes (R27, R52) -/

theorem writeReg_txPl_length (r : Reg) (v : Byte) (b : Block) : (writeReg r v b).txPl.length = b.txPl.length := by
  cases r <;> simp [writeReg]

/-- A host write reaches the configuration registers only (R52). -/
theorem writeReg_frame (r : Reg) (v : Byte) (b : Block) :
    writeReg r v b = { b with
      txType := (writeReg r v b).txType, expType := (writeReg r v b).expType, txId0 := (writeReg r v b).txId0,
      txId1 := (writeReg r v b).txId1, txPl := (writeReg r v b).txPl } := by
  cases r <;> rfl

theorem readReg_writeReg_same {r : Reg} {c : Config} {b : Block} (v : Byte) (hr : r.isConfig = true)
    (hp : r.present c = true) (hpl : b.txPl.length = c.pCmd) : readReg r (writeReg r v b) = some v := by
  cases r with
  | txPl i =>
    have hi : i.val < b.txPl.length := hpl ▸ of_decide_eq_true hp
    simp [readReg, writeReg, hi]
  | txType | expType | txId0 | txId1 => rfl
  | ctrl | status | phase | txPtr | rxCnt | terr | txBuf | rxBuf | rxType | rxPl | rxId0 | rxId1 => cases hr

theorem readReg_writeReg_other {r r' : Reg} (h : r' ≠ r) (v : Byte) (b : Block) :
    readReg r' (writeReg r v b) = readReg r' b := by
  cases r' with
  | txPl j =>
    cases r with
    | txPl i =>
      have hij : i.val ≠ j.val := fun e => h (congrArg Reg.txPl (Fin.ext e.symm))
      simp [readReg, writeReg, hij]
    | _ => rfl
  | txType | expType | txId0 | txId1 => cases r <;> simp_all [readReg, writeReg]
  | ctrl | status | phase | txPtr | rxCnt | terr | txBuf | rxBuf | rxType | rxPl | rxId0 | rxId1 =>
    rw [writeReg_frame]
    rfl

/-- Settles O17: the write is `writeReg` on the idle block, which touches the written register only. -/
theorem configWriteChangesOneRegister : Obligations.ConfigWriteChangesOneRegister := by
  intro s r v hb hr hp hpl
  refine ⟨{ s with blk := writeReg r v s.blk }, ?_, ?_, ?_, ?_⟩
  · exact (execWr_config (regAt_addr hp) hr).trans (whenIdle_idle _ hb)
  · intro r'
    split
    next h =>
      rw [h]
      exact readReg_writeReg_same v hr hp hpl
    next h => exact readReg_writeReg_other h v s.blk
  · exact (writeReg_txPl_length r v s.blk).trans hpl
  · exact congrArg (fun b => { s with blk := b }) (writeReg_frame r v s.blk)

/-- Settles O48: a command frame begins with a configuration write, which the busy rule guards. -/
theorem commandFramesWhileBusyFault : Obligations.CommandFramesWhileBusyFault := by
  intro s n id0 id1 hb i hi
  simp only [List.mem_cons, List.not_mem_nil, or_false] at hi
  rcases hi with rfl | rfl | rfl | rfl | rfl | rfl | rfl <;> exact whenIdle_busy _ hb

end Sys2Proof.Machine
end

section
/-! SUPPORT. The invariant of the reachable states (10_state.md R38 and the clauses beside it): first its form by the phase
of the block, then one law for each operation on the block, then the steps, the runs, and the reads it decides. -/

namespace Sys2Proof

/-- An accepted frame has the length it was decoded for, and a payload of the rest (R72, R102). -/
theorem decodeFrame_ok {c : Config} {L : Nat} {bs : List Byte} {f : Frame} (hL : 6 ≤ L) (h : decodeFrame c L bs = .ok f) :
    bs.length = L ∧ f.pl.length = L - 6 := by
  unfold decodeFrame at h
  split at h
  · cases h
  next hlen =>
    split_ifs at h
    cases h
    simp only [slice, List.length_take, List.length_drop]
    omega

/-- A frame of the right length is never `INVALID_LENGTH` (R105). -/
theorem decodeFrame_error_of_length {c : Config} {bs : List Byte} {e : ResultCode}
    (h : decodeFrame c bs.length bs = .error e) : e = .invalidHead ∨ e = .invalidTail ∨ e = .checksumMismatch := by
  rcases decodeFrame_error h with rfl | he
  · unfold decodeFrame at h
    rw [if_neg (not_not_intro rfl)] at h
    split_ifs at h <;> cases h
  · exact he

namespace Machine

/-! ### The invariant, by phase -/

/-- The clauses about what the arrays and the field registers hold: they speak of no phase (R23 to R30). -/
structure Block.Data (c : Config) (b : Block) : Prop where
  txPtr_le        : b.txPtr ≤ c.nCmd
  rxCnt_le        : b.rxCnt ≤ c.nRsp
  txPl_length     : b.txPl.length = c.pCmd
  txBuf_length    : b.txBuf.length = c.nCmd
  rxBuf_length    : b.rxBuf.length = b.rxCnt
  rxFrame_isSome  : b.rxFrame.isSome = b.status.rxValid
  rxFrame_decoded : ∀ f, b.rxFrame = some f → decodeFrame c c.nRsp b.rxBuf = .ok f
  txBuf_encoded   : b.status.txValid = true →
    ∃ t pl id0 id1, pl.length = c.pCmd ∧ b.txBuf = encodeFrame c t pl id0 id1

/-- The clauses about the course of an operation, phase by phase (R22 to R25, R32, R38). -/
inductive Block.Control (c : Config) (b : Block) : Prop where
  | idle (phase : b.phase = .idle) (busy : b.status.busy = false) (chain : b.status.chain = false)
      (terr : b.terr ≠ none ↔ b.status.result = .transportError) (result : b.status.result ≠ .invalidLength)
  | tx (phase : b.phase = .tx) (busy : b.status.busy = true) (result : b.status.result = .none) (terr : b.terr = none)
      (txValid : b.status.txValid = true) (txPtr : b.txPtr < c.nCmd)
      (chain : b.status.chain = true → b.rxCnt = 0 ∧ b.status.rxValid = false)
  | rx (phase : b.phase = .rx) (busy : b.status.busy = true) (result : b.status.result = .none) (terr : b.terr = none)
      (chain : b.status.chain = false) (rxCnt : b.rxCnt < c.nRsp) (rxValid : b.status.rxValid = false)

theorem State.Inv.data {s : State} (h : s.Inv) : s.blk.Data s.cfg := { h with }

theorem State.Inv.control {s : State} (h : s.Inv) : s.blk.Control s.cfg := by
  obtain ⟨hbusy, htx, hrx, -, hres, hchain, hterr⟩ := h.r38
  have hterr' : s.blk.status.busy = true → s.blk.terr = none := fun hb => by
    by_contra hne
    simp [hres hb] at hterr
    exact hne hterr
  have hchain' : s.blk.phase ≠ .tx → s.blk.status.chain = false := fun hp => Bool.eq_false_iff.mpr (mt hchain hp)
  cases hp : s.blk.phase with
  | idle =>
    refine .idle hp ?_ (hchain' (by simp [hp])) hterr h.result_length
    simpa [hp] using hbusy
  | tx =>
    have hb : s.blk.status.busy = true := by simp [hbusy, hp]
    exact .tx hp hb (hres hb) (hterr' hb) (htx hp).1 (htx hp).2 h.chain_rx
  | rx =>
    have hb : s.blk.status.busy = true := by simp [hbusy, hp]
    exact .rx hp hb (hres hb) (hterr' hb) (hchain' (by simp [hp])) (hrx hp).1 (hrx hp).2

/-- A block whose field registers hold a frame has received all of it (R24, R38). -/
theorem Block.Data.rx_valid {c : Config} {b : Block} (h : b.Data c) (hc : c.legal) (hv : b.status.rxValid = true) :
    b.rxCnt = c.nRsp := by
  obtain ⟨f, hf⟩ := Option.isSome_iff_exists.mp (h.rxFrame_isSome.trans hv)
  rw [← h.rxBuf_length]
  exact (decodeFrame_ok hc.2 (h.rxFrame_decoded f hf)).1

/-- The seven clauses of R38, read off the phase; the fourth is about the data. -/
theorem Block.Control.r38 {c : Config} {b : Block} (h : b.Control c) (hd : b.Data c) (hc : c.legal) : b.R38 c := by
  have hv := hd.rx_valid hc
  cases h <;> constructor <;> simp_all

/-- The invariant is what the arrays hold and where the operation stands. -/
theorem State.inv_iff {s : State} : s.Inv ↔ s.cfg.legal ∧ s.blk.Data s.cfg ∧ s.blk.Control s.cfg := by
  constructor
  · exact fun h => ⟨h.cfg_legal, h.data, h.control⟩
  · rintro ⟨hc, hd, hctl⟩
    refine { hd with cfg_legal := hc, r38 := hctl.r38 hd hc, result_length := ?_, chain_rx := ?_ }
    · cases hctl <;> simp_all
    · cases hctl <;> simp_all

/-- The invariant speaks of the parameters and the block only. -/
theorem State.Inv.of_eq {s t : State} (h : s.Inv) (hc : t.cfg = s.cfg) (hb : t.blk = s.blk) : t.Inv := by
  rw [State.inv_iff] at h ⊢
  rwa [hc, hb]

/-! ### Operations of the host -/

section Operations
variable {c : Config} {b : Block}

theorem Block.Data.finish (code : ResultCode) (h : b.Data c) : (Machine.finish code b).Data c := { h with }

theorem Block.Data.begin (ph : Phase) (chain : Bool) (h : b.Data c) : (Machine.begin ph chain b).Data c := { h with }

theorem Block.Data.clearRx (h : b.Data c) : (Machine.clearRx b).Data c :=
  { h with rxCnt_le := Nat.zero_le _, rxBuf_length := rfl, rxFrame_isSome := rfl, rxFrame_decoded := fun _ hf => by cases hf }

theorem Block.Data.loadTxBuf (hc : c.legal) (h : b.Data c) : (Machine.loadTxBuf c b).Data c :=
  { h with
    txPtr_le := Nat.zero_le _
    txBuf_length := by
      have hN := hc.1
      have hpl := h.txPl_length
      simp only [loadTxBuf_txBuf, encodeFrame_length, Config.pCmd] at hpl ⊢
      omega
    txBuf_encoded := fun _ => ⟨_, _, _, _, h.txPl_length, rfl⟩ }

theorem Block.Data.writeReg (r : Reg) (v : Byte) (h : b.Data c) : (Machine.writeReg r v b).Data c := by
  have hpl := (writeReg_txPl_length r v b).trans h.txPl_length
  rw [writeReg_frame]
  exact { h with txPl_length := hpl }

theorem Block.Control.writeReg (r : Reg) (v : Byte) (h : b.Control c) : (Machine.writeReg r v b).Control c := by
  rw [writeReg_frame]
  cases h with
  | idle hp hb hch hterr hres => exact .idle hp hb hch hterr hres
  | tx hp hb hres hterr hv hptr hch => exact .tx hp hb hres hterr hv hptr hch
  | rx hp hb hres hterr hch hcnt hv => exact .rx hp hb hres hterr hch hcnt hv

/-- The registers that a command loads are a frame's worth of payload (R82, R130). -/
theorem Block.Data.loadCommand (hc : c.legal) (sub rw arg id0 id1 exp : Byte) (h : b.Data c) :
    (Machine.loadCommand c sub rw arg id0 id1 exp b).Data c :=
  { h with
    txPl_length := by
      have hN := hc.1
      simp only [Machine.loadCommand, commandPayload_length, Config.pCmd]
      omega }

theorem Block.Data.beginXchg (hc : c.legal) (h : b.Data c) : (Machine.beginXchg c b).Data c :=
  ((h.loadTxBuf hc).clearRx).begin .tx true

/-- An exchange starts in phase TX with nothing received, whatever was before (R174). -/
theorem Block.Control.beginXchg (hc : c.legal) (b : Block) : (Machine.beginXchg c b).Control c :=
  .tx rfl rfl rfl rfl rfl (Nat.lt_of_lt_of_le (Nat.succ_pos 8) hc.1) (fun _ => ⟨rfl, rfl⟩)

theorem Block.Data.reset (c : Config) : (Block.reset c).Data c where
  txPtr_le := Nat.zero_le _
  rxCnt_le := Nat.zero_le _
  txPl_length := List.length_replicate
  txBuf_length := List.length_replicate
  rxBuf_length := rfl
  rxFrame_isSome := rfl
  rxFrame_decoded := fun _ hf => by cases hf
  txBuf_encoded := fun hv => by cases hv

theorem Block.Control.reset (c : Config) : (Block.reset c).Control c :=
  .idle rfl rfl rfl (by simp [Block.reset]) (by simp [Block.reset])

end Operations

/-! ### The link (R180 to R185) -/

section Link
variable {c : Config} {b : Block}

theorem Block.Control.eq_idle (h : b.Control c) (hb : b.status.busy = false) :
    b.phase = .idle ∧ b.status.chain = false := by
  cases h with
  | idle hp _ hch _ _ => exact ⟨hp, hch⟩
  | tx | rx => simp_all

theorem Block.Data.txFail (why : TErrKind) (h : b.Data c) : (Machine.txFail why b).Data c := { h with }

theorem Block.Control.txFail (why : TErrKind) (b : Block) : (Machine.txFail why b).Control c :=
  .idle rfl rfl rfl (by simp [Machine.txFail]) (by simp [Machine.txFail])

theorem Block.Data.txProgress {k : Nat} (hk : b.txPtr + k ≤ c.nCmd) (h : b.Data c) : (Machine.txProgress c k b).Data c := by
  unfold Machine.txProgress
  split_ifs
  all_goals exact { h with txPtr_le := hk }

/-- Progress ends SEND with OK, turns an exchange to its reception, or leaves bytes to send (R181). -/
theorem Block.Control.txProgress {k : Nat} (hc : c.legal) (hk : b.txPtr + k ≤ c.nCmd) (hp : b.phase = .tx)
    (h : b.Control c) : (Machine.txProgress c k b).Control c := by
  cases h with
  | idle hp' => simp [hp'] at hp
  | rx hp' => simp [hp'] at hp
  | tx _ hb hres hterr hv hptr hch =>
    unfold Machine.txProgress
    split_ifs with hlast hchain
    · obtain ⟨hcnt, hrv⟩ := hch hchain
      have hpos : 0 < c.nRsp := Nat.lt_of_lt_of_le (Nat.succ_pos 5) hc.2
      exact .rx rfl hb hres hterr rfl (hcnt ▸ hpos) hrv
    · exact .idle rfl rfl (Bool.eq_false_iff.mpr hchain) (by simp [hterr]) (by simp)
    · exact .tx hp hb hres hterr hv (Nat.lt_of_le_of_ne hk hlast) hch

theorem Block.Data.rxFail (why : TErrKind) (h : b.Data c) : (Machine.rxFail why b).Data c := { h with }

theorem Block.Control.rxFail (why : TErrKind) (hp : b.phase = .rx) (h : b.Control c) :
    (Machine.rxFail why b).Control c := by
  cases h with
  | idle hp' => simp [hp'] at hp
  | tx hp' => simp [hp'] at hp
  | rx _ _ _ _ hch => exact .idle rfl rfl hch (by simp [Machine.rxFail]) (by simp [Machine.rxFail])

/-- Completion with the whole frame in `RXBUF` sets the field registers to what it decodes to, or leaves them (R184). -/
theorem Block.Data.rxComplete (h : b.Data c) : (Machine.rxComplete c b).Data c := by
  rcases rxComplete_cases c b with ⟨e, -, he⟩ | ⟨f, hf, he⟩
  · exact he ▸ h.finish e
  · rw [he]
    exact { h with
      rxFrame_isSome := rfl
      rxFrame_decoded := fun g hg => by
        cases hg
        exact hf }

/-- Completion ends with the verdict on a frame of the right length, which is neither `INVALID_LENGTH` nor a transport
error (R105, R184). -/
theorem rxComplete_result (hlen : b.rxBuf.length = c.nRsp) :
    (Machine.rxComplete c b).status.result ≠ .invalidLength ∧ (Machine.rxComplete c b).status.result ≠ .transportError := by
  rcases rxComplete_cases c b with ⟨e, he, hr⟩ | ⟨f, -, hr⟩ <;> rw [hr, finish_result]
  · rcases decodeFrame_error_of_length (hlen ▸ he) with rfl | rfl | rfl <;> decide
  · unfold typeCheck
    split <;> decide

/-- What completion leaves of the block's course: idle, with `CHAIN` and `TERR` as they were (R184). -/
theorem rxComplete_frame (c : Config) (b : Block) :
    (Machine.rxComplete c b).phase = .idle ∧ (Machine.rxComplete c b).status.busy = false ∧
      (Machine.rxComplete c b).status.chain = b.status.chain ∧ (Machine.rxComplete c b).terr = b.terr := by
  rcases rxComplete_cases c b with ⟨e, -, hr⟩ | ⟨f, -, hr⟩ <;> rw [hr] <;> exact ⟨rfl, rfl, rfl, rfl⟩

/-- The block after `bytes` more have been received (R183). -/
def Block.received (bytes : List Byte) (b : Block) : Block :=
  { b with rxBuf := b.rxBuf ++ bytes, rxCnt := b.rxCnt + bytes.length }

theorem rxProgress_eq (c : Config) (bytes : List Byte) (b : Block) :
    Machine.rxProgress c bytes b =
      if b.rxCnt + bytes.length = c.nRsp then Machine.rxComplete c (b.received bytes) else b.received bytes := rfl

/-- While the field registers hold nothing, more bytes in `RXBUF` break no clause. -/
theorem Block.Data.received {bytes : List Byte} (hk : b.rxCnt + bytes.length ≤ c.nRsp) (hv : b.status.rxValid = false)
    (h : b.Data c) : (b.received bytes).Data c :=
  { h with
    rxCnt_le := hk
    rxBuf_length := by simp [Block.received, h.rxBuf_length]
    rxFrame_decoded := fun f hf => by
      have hs := h.rxFrame_isSome
      have hf' : b.rxFrame = some f := hf
      simp [hf', hv] at hs }

/-- Progress leaves bytes to receive or completes the reception (R183, R184). -/
theorem Block.rxProgress_keeps {bytes : List Byte} (hk : b.rxCnt + bytes.length ≤ c.nRsp) (hp : b.phase = .rx)
    (hd : b.Data c) (h : b.Control c) :
    (Machine.rxProgress c bytes b).Data c ∧ (Machine.rxProgress c bytes b).Control c := by
  cases h with
  | idle hp' => simp [hp'] at hp
  | tx hp' => simp [hp'] at hp
  | rx _ hb hres hterr hch hcnt hv =>
    have hd' := hd.received hk hv
    rw [rxProgress_eq]
    split
    next hlast =>
      obtain ⟨hphase, hbusy, hchain, hte⟩ := rxComplete_frame c (b.received bytes)
      obtain ⟨hlen, hnt⟩ := rxComplete_result (hd'.rxBuf_length.trans hlast)
      have hnone : (Machine.rxComplete c (b.received bytes)).terr = none := hte.trans hterr
      exact ⟨hd'.rxComplete, .idle hphase hbusy (hchain.trans hch) (by simp [hnone, hnt]) hlen⟩
    next hmore => exact ⟨hd', .rx hp hb hres hterr hch (Nat.lt_of_le_of_ne hk hmore) hv⟩

end Link

/-! ### Every operation keeps the invariant -/

section Steps
variable {s t : State}

/-- An update of the block keeps the invariant when it keeps both its parts. -/
theorem State.Inv.blk (h : s.Inv) {b : Block} (hd : b.Data s.cfg) (hctl : b.Control s.cfg) :
    State.Inv { s with blk := b } :=
  State.inv_iff.mpr ⟨h.cfg_legal, hd, hctl⟩

theorem State.Inv.resetBlock (h : s.Inv) : (Machine.resetBlock s).Inv := h.blk (.reset _) (.reset _)

theorem State.Inv.execEncode (h : s.Inv) (he : Machine.execEncode s = .next t) : t.Inv := by
  obtain ⟨hb, ht⟩ := whenIdle_next.mp he
  cases ht
  obtain ⟨hp, hch⟩ := h.control.eq_idle hb
  exact h.blk { h.data.loadTxBuf h.cfg_legal with } (.idle hp hb hch (by simp) (by simp))

theorem State.Inv.execSend (h : s.Inv) (he : Machine.execSend s = .next t) : t.Inv := by
  obtain ⟨hb, ht⟩ := whenIdle_next.mp he
  cases ht
  obtain ⟨hp, hch⟩ := h.control.eq_idle hb
  split
  next hv =>
    have hpos : 0 < s.cfg.nCmd := Nat.lt_of_lt_of_le (Nat.succ_pos 8) h.cfg_legal.1
    exact h.blk { h.data with txPtr_le := Nat.zero_le _ } (.tx rfl rfl rfl rfl hv hpos (by simp))
  next => exact h.blk { h.data with } (.idle hp hb hch (by simp) (by simp))

theorem State.Inv.execRecv (h : s.Inv) (he : Machine.execRecv s = .next t) : t.Inv := by
  obtain ⟨-, ht⟩ := whenIdle_next.mp he
  cases ht
  have hpos : 0 < s.cfg.nRsp := Nat.lt_of_lt_of_le (Nat.succ_pos 5) h.cfg_legal.2
  exact h.blk (h.data.clearRx.begin .rx false) (.rx rfl rfl rfl rfl rfl hpos rfl)

theorem State.Inv.execXchg (h : s.Inv) (he : Machine.execXchg s = .next t) : t.Inv := by
  obtain ⟨-, ht⟩ := whenIdle_next.mp he
  cases ht
  exact h.blk (h.data.beginXchg h.cfg_legal) (.beginXchg h.cfg_legal _)

theorem State.Inv.runCommand (h : s.Inv) {sub rw arg id0 id1 exp : Byte}
    (he : Machine.runCommand sub rw arg id0 id1 exp s = .next t) : t.Inv := by
  obtain ⟨-, rfl⟩ := runCommand_next he
  exact h.blk ((h.data.loadCommand h.cfg_legal _ _ _ _ _ _).beginXchg h.cfg_legal) (.beginXchg h.cfg_legal _)

theorem State.Inv.ctrlWrite (h : s.Inv) {op : Byte} (he : Machine.ctrlWrite op s = .next t) : t.Inv := by
  unfold Machine.ctrlWrite at he
  split_ifs at he
  · exact h.execEncode he
  · exact h.execSend he
  · exact h.execRecv he
  · exact h.execXchg he
  · cases he
    exact h.resetBlock

theorem State.Inv.execRd (h : s.Inv) {a : Byte} (he : Machine.execRd a s = .next t) : t.Inv := by
  obtain ⟨r, v, -, -, rfl⟩ := execRd_next he
  exact h.of_eq (markRead_cfg r _) (markRead_blk r _)

theorem State.Inv.execWr (h : s.Inv) {a v : Byte} (he : Machine.execWr a v s = .next t) : t.Inv := by
  by_cases ha : regAt s.cfg a = some .ctrl
  · exact h.ctrlWrite ((execWr_ctrl ha).symm.trans he)
  · obtain ⟨r, -, -, -, rfl⟩ := execWr_next he ha
    exact h.blk (h.data.writeReg r v) (h.control.writeReg r v)

theorem State.Inv.linkTxStep (o : WriteOutcome) (h : s.Inv) : (Machine.linkTxStep o s).Inv := by
  rcases linkTxStep_cases o s with he | ⟨-, why, he⟩ | ⟨hp, k, -, hk, he⟩ <;> rw [he]
  · exact h
  · exact h.blk (h.data.txFail why) (.txFail why _)
  · exact (h.blk (h.data.txProgress hk) (h.control.txProgress h.cfg_legal hk hp)).of_eq rfl rfl

theorem State.Inv.linkRxStep (o : ReadOutcome) (h : s.Inv) : (Machine.linkRxStep o s).Inv := by
  rcases linkRxStep_cases o s with he | ⟨hp, why, he⟩ | ⟨hp, k, -, hk, hlen, he⟩ <;> rw [he]
  · exact h
  · exact (h.blk (h.data.rxFail why) (h.control.rxFail why hp)).of_eq rfl rfl
  · have hk' : s.blk.rxCnt + (s.link.incoming.take k).length ≤ s.cfg.nRsp := by
      rwa [List.length_take_of_le hlen]
    obtain ⟨hd, hctl⟩ := Block.rxProgress_keeps hk' hp h.data h.control
    exact (h.blk hd hctl).of_eq rfl rfl

theorem State.Inv.arrive (bs : List Byte) (h : s.Inv) : (Machine.arrive bs s).Inv := by
  have hs : (sensorAppend bs s).Inv := h.of_eq rfl rfl
  rcases arrive_cases bs s with he | ⟨k, he⟩ <;> rw [he]
  · exact hs
  · exact hs.linkRxStep _

theorem State.Inv.exec (h : s.Inv) {i : Instr} (he : Machine.exec i s = .next t) : t.Inv := by
  cases i with
  | encode => exact h.execEncode he
  | send => exact h.execSend he
  | recv => exact h.execRecv he
  | xchg => exact h.execXchg he
  | reset =>
    cases he
    exact h.resetBlock
  | rd a => exact h.execRd he
  | wr a v => exact h.execWr he
  | setReportingQuery | setReportingActive | setSleep | setWork | setWorkingPeriod | queryFirmware | queryData =>
    exact h.runCommand he
  | dataReport | replyReportingMode | replyDeviceMode | replyWorkingPeriod | replyFirmware =>
    cases he
    exact h.arrive _

theorem State.Inv.undecoded (h : s.Inv) {tr : Transaction} {e : DecodeError} (he : Machine.undecoded tr e s = .next t) :
    t.Inv := by
  cases tr with
  | rspFrame bs =>
    cases he
    exact h.arrive bs
  | hostRead | hostWrite | cmdFrame => cases he

theorem State.Inv.runEvent (h : s.Inv) {ev : Event} (he : Machine.runEvent ev s = .next t) : t.Inv := by
  cases ev with
  | fetch tr =>
    cases hd : decode s.cfg tr with
    | ok i => exact h.exec (runEvent_fetch_ok s hd ▸ he)
    | error e => exact h.undecoded (runEvent_fetch_error s hd ▸ he)
  | linkTx o =>
    cases he
    exact h.linkTxStep o
  | linkRx o =>
    cases he
    exact h.linkRxStep o
  | sensor | lose | flush =>
    cases he
    exact h.of_eq rfl rfl
  | resetInput =>
    cases he
    exact h.resetBlock

end Steps

/-- Settles O37: the event taken off the agenda is no part of the invariant, and every event keeps it. -/
theorem everyStepKeepsTheInvariant : Obligations.EveryStepKeepsTheInvariant := by
  intro s t h hstep
  rcases step_next_cases hstep with ⟨-, rfl⟩ | ⟨ev, rest, -, he⟩
  · exact h
  · have hs : State.Inv { s with agenda := rest } := h.of_eq rfl rfl
    exact hs.runEvent he

/-! ### Runs from power-on -/

theorem State.boot_inv {c : Config} (hc : c.legal) (l : Link) (agenda : List Event) : (State.boot c l agenda).Inv :=
  State.inv_iff.mpr ⟨hc, .reset c, .reset c⟩

/-- Settles O36: the reset block meets both parts of the invariant at any parameters of legal frame lengths. -/
theorem invariantHoldsAtPowerOn : Obligations.InvariantHoldsAtPowerOn :=
  ⟨State.boot_inv (c := Config.default) (by decide) _ _, fun _ l agenda hc => State.boot_inv hc l agenda⟩

/-- A run that ends in a state took a step that answered, and went on from there. -/
theorem core_run_succ_next {n : Nat} {s u : State} (h : Host.Core.run Sys2Proof.core (n + 1) s = .next u) :
    ∃ t, step s = .next t ∧ Host.Core.run Sys2Proof.core n t = .next u := by
  cases hs : step s with
  | next t => exact ⟨t, rfl, core_run_succ_of_next n hs ▸ h⟩
  | fault r =>
    have hc : Sys2Proof.core.step s = .fault r := hs
    simp [Host.Core.run, hc] at h
  | refused r =>
    have hc : Sys2Proof.core.step s = .refused r := hs
    simp [Host.Core.run, hc] at h

/-- What every step keeps, every run keeps. -/
theorem core_run_induction {P : State → Prop} (hstep : ∀ s t, P s → step s = .next t → P t) {n : Nat} {s u : State}
    (hs : P s) (h : Host.Core.run Sys2Proof.core n s = .next u) : P u := by
  induction n generalizing s with
  | zero =>
    cases h
    exact hs
  | succ n ih =>
    obtain ⟨t, ht, hrun⟩ := core_run_succ_next h
    exact ih (hstep s t hs ht) hrun

/-- Settles O38: the invariant holds at power-on and along the run, whose parameters stay. -/
theorem reachableStatesSatisfyR38 : Obligations.ReachableStatesSatisfyR38 := by
  intro c l agenda n s hc hrun
  have hkeep : ∀ s t : State, (s.Inv ∧ s.cfg = c) → step s = .next t → t.Inv ∧ t.cfg = c := fun s t ⟨hi, hcfg⟩ ht =>
    ⟨everyStepKeepsTheInvariant s t hi ht, (stepKeepsParameters s t ht).1.trans hcfg⟩
  obtain ⟨hi, hcfg⟩ := core_run_induction (P := fun s => s.Inv ∧ s.cfg = c) hkeep ⟨State.boot_inv hc l agenda, rfl⟩ hrun
  exact hcfg ▸ hi.r38

/-! ### The reads that the invariant decides -/

/-- The field registers of the map all hold a value when `RXVALID` is 1 (R30): the accepted frame fills `RXPL`. -/
theorem State.Inv.readReg_field {s : State} (h : s.Inv) {r : Reg} (hp : r.present s.cfg = true) (hf : r.isField = true)
    (hv : s.blk.status.rxValid = true) : (readReg r s.blk).isSome = true := by
  obtain ⟨f, hfr⟩ := Option.isSome_iff_exists.mp (h.rxFrame_isSome.trans hv)
  cases r with
  | rxPl i =>
    have hpl := (decodeFrame_ok h.cfg_legal.2 (h.rxFrame_decoded f hfr)).2
    have hi : i.val < f.pl.length := by
      rw [hpl]
      exact of_decide_eq_true hp
    simp [readReg, hv, hfr, hi]
  | rxType | rxId0 | rxId1 => simp [readReg, hv, hfr]
  | ctrl | status | phase | txType | expType | txId0 | txId1 | txPtr | rxCnt | terr | txPl | txBuf | rxBuf => cases hf

/-- Settles O16: by the invariant a value is there exactly under the register's own condition. -/
theorem valuesHeldExactlyWhen : Obligations.ValuesHeldExactlyWhen := by
  intro s h hc hr readable
  have hread : ∀ {a : Byte} {r : Reg} {ok : Prop}, regAt s.cfg a = some r → (ok → (readReg r s.blk).isSome = true) →
      (¬ ok → readReg r s.blk = none) → readable a ok := fun hreg hsome hnone =>
    ⟨fun hok => (exists_execRd_next hreg).mpr (hsome hok), fun hno => execRd_noValue hreg (hnone hno)⟩
  refine ⟨?rxBuf, ?field, ?terr⟩
  case rxBuf =>
    intro i hi
    have hp : (Reg.rxBuf ⟨i, by omega⟩).present s.cfg = true := by simp [Reg.present, hr, hi]
    refine hread (regAt_addr hp) (fun hlt => ?_) (fun hge => if_neg hge)
    have hlen : i < s.blk.rxBuf.length := by rwa [h.rxBuf_length]
    simp [readReg, hlt, hlen]
  case field =>
    intro a h50 h56
    obtain ⟨r, hreg, rfl⟩ := exists_regAt hc hr (a := a) (by unfold IsReservedAddr; bv_omega)
    have hf := r.isField_iff_addr.mpr ⟨h50, h56⟩
    exact hread hreg (h.readReg_field (regAt_eq_some.mp hreg).2 hf)
      (fun hv => readReg_field_invalid hf (Bool.eq_false_iff.mpr hv))
  case terr =>
    refine hread (regAt_addr (r := .terr) rfl) (fun hres => ?_) (fun hres => if_neg hres)
    simpa [readReg, hres, Option.isSome_iff_ne_none] using h.r38.terr_iff.mpr hres

end Machine

end Sys2Proof
end

section
/-! SUPPORT. Who changes `TXBUF` (10_state.md R28, 20_memory.md R64): each operation of the block keeps it, but the ones
that build a frame. -/

namespace Sys2Proof.Machine

section TxBuf
variable (c : Config) (b : Block)

@[simp] theorem writeReg_txBuf (r : Reg) (v : Byte) : (writeReg r v b).txBuf = b.txBuf := by rw [writeReg_frame]

@[simp] theorem txProgress_txBuf (k : Nat) : (txProgress c k b).txBuf = b.txBuf := by
  unfold txProgress
  split_ifs <;> rfl

@[simp] theorem rxComplete_txBuf : (rxComplete c b).txBuf = b.txBuf := by
  rcases rxComplete_cases c b with ⟨e, -, h⟩ | ⟨f, -, h⟩ <;> rw [h, finish_txBuf]

@[simp] theorem rxProgress_txBuf (bytes : List Byte) : (rxProgress c bytes b).txBuf = b.txBuf := by
  rw [rxProgress_eq]
  split
  · exact rxComplete_txBuf c (b.received bytes)
  · rfl

end TxBuf

theorem linkTxStep_txBuf (o : WriteOutcome) (s : State) : (linkTxStep o s).blk.txBuf = s.blk.txBuf := by
  rcases linkTxStep_cases o s with h | ⟨-, why, h⟩ | ⟨-, k, -, -, h⟩ <;> rw [h]
  · rfl
  · exact txProgress_txBuf s.cfg s.blk k

theorem linkRxStep_txBuf (o : ReadOutcome) (s : State) : (linkRxStep o s).blk.txBuf = s.blk.txBuf := by
  rcases linkRxStep_cases o s with h | ⟨-, why, h⟩ | ⟨-, k, -, -, -, h⟩ <;> rw [h]
  · rfl
  · exact rxProgress_txBuf s.cfg s.blk _

theorem arrive_txBuf (bs : List Byte) (s : State) : (arrive bs s).blk.txBuf = s.blk.txBuf := by
  rcases arrive_cases bs s with h | ⟨k, h⟩ <;> rw [h]
  · rfl
  · exact linkRxStep_txBuf _ (sensorAppend bs s)

section Instructions
variable {s t : State}

theorem execRd_txBuf {a : Byte} (h : execRd a s = .next t) : t.blk.txBuf = s.blk.txBuf := by
  obtain ⟨r, v, -, -, rfl⟩ := execRd_next h
  rw [markRead_blk]

/-- A well-formed WR goes to no address of an opcode, so it rebuilds no frame (R76, R176). -/
theorem execWr_txBuf {a v : Byte} (ha : a ≠ 0x00) (h : execWr a v s = .next t) : t.blk.txBuf = s.blk.txBuf := by
  obtain ⟨r, -, -, -, rfl⟩ := execWr_next h (mt regAt_eq_ctrl.mp ha)
  exact writeReg_txBuf s.blk r v

theorem execSend_txBuf (h : execSend s = .next t) : t.blk.txBuf = s.blk.txBuf := by
  obtain ⟨-, ht⟩ := whenIdle_next.mp h
  cases ht
  dsimp only
  split <;> rfl

theorem execRecv_txBuf (h : execRecv s = .next t) : t.blk.txBuf = s.blk.txBuf := by
  obtain ⟨-, ht⟩ := whenIdle_next.mp h
  cases ht
  rfl

/-- A command builds the frame it is encoded as (R130). -/
theorem runCommand_txBuf {sub rw arg id0 id1 exp : Byte} (h : runCommand sub rw arg id0 id1 exp s = .next t) :
    encodeCommand s.cfg sub rw arg id0 id1 = .cmdFrame t.blk.txBuf := by
  obtain ⟨-, rfl⟩ := runCommand_next h
  rfl

end Instructions

/-- Settles O45: an instruction that is not named keeps `TXBUF`, and a command frame puts its own bytes there. -/
theorem onlyEncodeRebuildsTxBuf : Obligations.OnlyEncodeRebuildsTxBuf := by
  refine ⟨fun i s t h hwf hne => ?_, linkTxStep_txBuf, linkRxStep_txBuf⟩
  cases i with
  | encode => exact .inl rfl
  | xchg => exact .inr (.inl rfl)
  | reset => exact .inr (.inr (.inl rfl))
  | send => exact absurd (execSend_txBuf h) hne
  | recv => exact absurd (execRecv_txBuf h) hne
  | rd a => exact absurd (execRd_txBuf h) hne
  | wr a v => exact absurd (execWr_txBuf (bne_iff_ne.mp hwf) h) hne
  | setReportingQuery | setReportingActive | setSleep | setWork | setWorkingPeriod | queryFirmware | queryData =>
    exact .inr (.inr (.inr ⟨_, runCommand_txBuf h, rfl⟩))
  | dataReport | replyReportingMode | replyDeviceMode | replyWorkingPeriod | replyFirmware =>
    cases h
    exact absurd (arrive_txBuf _ s) hne

end Sys2Proof.Machine
end

section
/-! SUPPORT. Values, addresses and bytes on the link (20_memory.md R51, R57, R61, R66): the 16-bit assemblies, the place of
the register space, chunks of a transfer, and what the block takes from `S`. -/

namespace Sys2Proof

/-! ### The 16-bit assemblies and the register space -/

@[simp] theorem le16_toNat (lo hi : Byte) : (le16 lo hi).toNat = lo.toNat + 256 * hi.toNat := by
  have hlo : lo.toNat < 2 ^ 8 := lo.isLt
  have hhi : hi.toNat <<< 8 < 2 ^ 16 := by
    have := hi.isLt
    rw [Nat.shiftLeft_eq]
    omega
  have hor : (le16 lo hi).toNat = hi.toNat <<< 8 ||| lo.toNat := by
    simp only [le16, zext16, BitVec.toNat_or, BitVec.toNat_shiftLeft, BitVec.toNat_setWidth_of_le (show 8 ≤ 16 by decide),
      Nat.mod_eq_of_lt hhi, Nat.or_comm]
  rw [hor, ← Nat.shiftLeft_add_eq_or_of_lt hlo, Nat.shiftLeft_eq]
  omega

/-- Settles O7: the two bytes overlap in no bit, and the device ID is the same assembly in either order. -/
theorem sixteenBitAssemblies : Obligations.SixteenBitAssemblies := by
  refine ⟨le16_toNat, fun id0 id1 => ?_, le16_toNat, fun o => ?_⟩
  · rw [devId, le16_toNat, Nat.add_comm]
  · cases o <;> rfl

namespace Machine

/-- Settles O13: within the window the offset from the base is the address, and an address is such an offset. -/
theorem registerSpaceAtBase : Obligations.RegisterSpaceAtBase := by
  intro c n a
  unfold regAddrOf
  split
  next hin =>
    rw [Option.some.injEq, ← BitVec.toNat_inj, BitVec.toNat_ofNat]
    omega
  next hout =>
    have ha : a.toNat < 256 := a.isLt
    simp only [reduceCtorEq, false_iff]
    omega

/-! ### A transfer in one chunk or in several (R61) -/

/-- Chunks one after the other are one chunk of their sum, for a step that may be cut in two wherever it is enabled. -/
theorem foldl_chunks {chunk : Nat → State → State} {Enabled : Nat → State → Prop}
    (hcut : ∀ {s a b}, 1 ≤ a → 1 ≤ b → Enabled (a + b) s → Enabled b (chunk a s) ∧ chunk b (chunk a s) = chunk (a + b) s)
    {ks : List Nat} {s : State} (hne : ks ≠ []) (hpos : ∀ k ∈ ks, 1 ≤ k) (h : Enabled ks.sum s) :
    ks.foldl (fun u k => chunk k u) s = chunk ks.sum s := by
  induction ks generalizing s with
  | nil => exact absurd rfl hne
  | cons k ks ih =>
    rw [List.forall_mem_cons] at hpos
    obtain ⟨hk, hks⟩ := hpos
    rcases ks with _ | ⟨k', ks⟩
    · rfl
    · have hsum : 1 ≤ (k' :: ks).sum := by
        have := hks k' List.mem_cons_self
        rw [List.sum_cons]
        omega
      obtain ⟨hrest, hjoin⟩ := hcut hk hsum h
      rw [List.foldl_cons, ih (List.cons_ne_nil _ _) hks hrest, hjoin, ← List.sum_cons]

/-- LINK_TX may accept `k` bytes: a transmission has as many left to send (R180, R181). -/
def TxEnabled (k : Nat) (s : State) : Prop := s.blk.phase = .tx ∧ s.blk.txPtr + k ≤ s.cfg.nCmd

/-- LINK_RX may deliver `k` bytes: a reception needs as many, and `S` holds them (R183). -/
def RxEnabled (k : Nat) (s : State) : Prop :=
  s.blk.phase = .rx ∧ s.blk.rxCnt + k ≤ s.cfg.nRsp ∧ k ≤ s.link.incoming.length

theorem linkTxStep_accepted {k : Nat} {s : State} (hk : 1 ≤ k) (h : TxEnabled k s) :
    linkTxStep (.accepted k) s = { s with
      blk := txProgress s.cfg k s.blk
      link := { s.link with outgoing := s.link.outgoing ++ (s.blk.txBuf.drop s.blk.txPtr).take k }
      port := afterTx s.cfg k s.blk s.port } := by
  obtain ⟨k, rfl⟩ := Nat.exists_eq_add_of_le' hk
  simp only [linkTxStep, h.1, if_pos h.2]

theorem linkRxStep_delivered {k : Nat} {s : State} (hk : 1 ≤ k) (h : RxEnabled k s) :
    linkRxStep (.delivered k) s = afterRx (rxProgress s.cfg (s.link.incoming.take k) s.blk)
      { s with link := { s.link with incoming := s.link.incoming.drop k } } := by
  obtain ⟨k, rfl⟩ := Nat.exists_eq_add_of_le' hk
  simp only [linkRxStep, h.1, if_pos h.2]

/-- A chunk that leaves bytes to send moves `TXPTR` and nothing else of the block (R181). -/
theorem linkTxStep_accepted_partial {k : Nat} {s : State} (hk : 1 ≤ k) (hp : s.blk.phase = .tx)
    (hlt : s.blk.txPtr + k < s.cfg.nCmd) :
    linkTxStep (.accepted k) s = { s with
      blk := { s.blk with txPtr := s.blk.txPtr + k }
      link := { s.link with outgoing := s.link.outgoing ++ (s.blk.txBuf.drop s.blk.txPtr).take k } } := by
  rw [linkTxStep_accepted hk ⟨hp, hlt.le⟩, txProgress, if_neg hlt.ne, afterTx, if_neg hlt.ne]

/-- A chunk that leaves bytes to receive only moves them from `S` to `RXBUF` (R183). -/
theorem linkRxStep_delivered_partial {k : Nat} {s : State} (hk : 1 ≤ k) (hp : s.blk.phase = .rx)
    (hlt : s.blk.rxCnt + k < s.cfg.nRsp) (hlen : k ≤ s.link.incoming.length) :
    linkRxStep (.delivered k) s = { s with
      blk := s.blk.received (s.link.incoming.take k)
      link := { s.link with incoming := s.link.incoming.drop k } } := by
  have hmore : s.blk.rxCnt + (s.link.incoming.take k).length ≠ s.cfg.nRsp := by
    rw [List.length_take_of_le hlen]
    exact hlt.ne
  have hphase : (s.blk.received (s.link.incoming.take k)).phase ≠ .idle := by simp [Block.received, hp]
  rw [linkRxStep_delivered hk ⟨hp, hlt.le, hlen⟩, rxProgress_eq, if_neg hmore]
  simp [afterRx, hphase]

theorem linkTxStep_chunks {a b : Nat} {s : State} (ha : 1 ≤ a) (hb : 1 ≤ b) (h : TxEnabled (a + b) s) :
    TxEnabled b (linkTxStep (.accepted a) s) ∧
      linkTxStep (.accepted b) (linkTxStep (.accepted a) s) = linkTxStep (.accepted (a + b)) s := by
  obtain ⟨hp, hle⟩ := h
  have ha' := linkTxStep_accepted_partial ha hp (by omega)
  have hb' : TxEnabled b (linkTxStep (.accepted a) s) := by
    rw [ha']
    exact ⟨hp, by simpa [Nat.add_assoc] using hle⟩
  refine ⟨hb', ?_⟩
  rw [linkTxStep_accepted hb hb', ha', linkTxStep_accepted (by omega) ⟨hp, hle⟩]
  simp [txProgress, afterTx, Nat.add_assoc, List.take_add]

theorem linkRxStep_chunks {a b : Nat} {s : State} (ha : 1 ≤ a) (hb : 1 ≤ b) (h : RxEnabled (a + b) s) :
    RxEnabled b (linkRxStep (.delivered a) s) ∧
      linkRxStep (.delivered b) (linkRxStep (.delivered a) s) = linkRxStep (.delivered (a + b)) s := by
  obtain ⟨hp, hle, hlen⟩ := h
  have ha' := linkRxStep_delivered_partial ha hp (by omega) (by omega)
  have hb' : RxEnabled b (linkRxStep (.delivered a) s) := by
    rw [ha']
    refine ⟨hp, ?_, ?_⟩
    · rw [Block.received, List.length_take_of_le (by omega), Nat.add_assoc]
      exact hle
    · rw [List.length_drop]
      omega
  refine ⟨hb', ?_⟩
  rw [linkRxStep_delivered hb hb', ha', linkRxStep_delivered (by omega) ⟨hp, hle, hlen⟩]
  simp [rxProgress_eq, Block.received, List.take_add, Nat.add_assoc, afterRx]

/-- Settles O30: a link step may be cut in two, and so, by induction, into any chunks. -/
theorem chunkSizesDoNotMatter : Obligations.ChunkSizesDoNotMatter :=
  ⟨fun _ _ hp hne hpos hle => foldl_chunks (Enabled := TxEnabled) linkTxStep_chunks hne hpos ⟨hp, hle⟩,
    fun _ _ hp hne hpos hle hlen => foldl_chunks (Enabled := RxEnabled) linkRxStep_chunks hne hpos ⟨hp, hle, hlen⟩⟩

/-! ### What the block takes from `S` (R66) -/

theorem linkRxStep_of_not_rx {s : State} (o : ReadOutcome) (h : s.blk.phase ≠ .rx) : linkRxStep o s = s := by
  rcases linkRxStep_cases o s with he | ⟨hp, -⟩ | ⟨hp, -⟩
  · exact he
  · exact absurd hp h
  · exact absurd hp h

/-- Bytes that arrive while no reception is in progress wait in `S` (R194). -/
theorem arrive_of_not_rx {s : State} (bs : List Byte) (h : s.blk.phase ≠ .rx) : arrive bs s = sensorAppend bs s := by
  rcases arrive_cases bs s with he | ⟨k, he⟩
  · exact he
  · exact he.trans (linkRxStep_of_not_rx (s := sensorAppend bs s) _ h)

/-- Settles O55: the arrival of a frame is the SENSOR step alone where no reception reads it. -/
theorem unsolicitedFramesWaitInTheStream : Obligations.UnsolicitedFramesWaitInTheStream := by
  intro s i bs hp hi
  obtain ⟨hexec, hlen⟩ := exec_of_encode_rspFrame hi
  exact ⟨hlen, hexec.trans (congrArg _ (arrive_of_not_rx bs hp))⟩

@[simp] theorem rxComplete_rxBuf (c : Config) (b : Block) : (rxComplete c b).rxBuf = b.rxBuf := by
  rcases rxComplete_cases c b with ⟨e, -, h⟩ | ⟨f, -, h⟩ <;> rw [h, finish_rxBuf]

@[simp] theorem rxProgress_rxBuf (c : Config) (bytes : List Byte) (b : Block) :
    (rxProgress c bytes b).rxBuf = b.rxBuf ++ bytes := by
  rw [rxProgress_eq]
  split
  · exact rxComplete_rxBuf c (b.received bytes)
  · rfl

theorem linkTxStep_incoming (o : WriteOutcome) (s : State) : (linkTxStep o s).link.incoming = s.link.incoming := by
  rcases linkTxStep_cases o s with h | ⟨-, _, h⟩ | ⟨-, _, -, -, h⟩ <;> rw [h]

/-- The next state has the first `k` bytes of `S` at the end of `RXBUF`, and the rest of `S` (R66). -/
def Reads (k : Nat) (s t : State) : Prop :=
  t.link.incoming = s.link.incoming.drop k ∧ t.blk.rxBuf = s.blk.rxBuf ++ s.link.incoming.take k

theorem reads_zero {s t : State} (hl : t.link = s.link) (hb : t.blk.rxBuf = s.blk.rxBuf) : Reads 0 s t := by
  simp [Reads, hl, hb]

/-- A LINK_RX step reads nothing, or in a reception no more than the frame still needs (R183, R185). -/
theorem linkRxStep_reads (o : ReadOutcome) (s : State) :
    ∃ k, (k = 0 ∨ (s.blk.phase = .rx ∧ s.blk.rxCnt + k ≤ s.cfg.nRsp)) ∧ Reads k s (linkRxStep o s) := by
  rcases linkRxStep_cases o s with h | ⟨-, why, h⟩ | ⟨hp, k, -, hk, -, h⟩ <;> rw [h]
  · exact ⟨0, .inl rfl, reads_zero rfl rfl⟩
  · exact ⟨0, .inl rfl, reads_zero rfl rfl⟩
  · exact ⟨k, .inr ⟨hp, hk⟩, rfl, rxProgress_rxBuf ..⟩

/-- The bytes of an arrival join `S`, of which the block reads no more than its frame still needs (R150, R183). -/
theorem arrive_reads (bs : List Byte) (s : State) :
    ∃ k, k ≤ s.cfg.nRsp - s.blk.rxCnt ∧ Reads k (sensorAppend bs s) (arrive bs s) := by
  rcases arrive_cases bs s with h | ⟨d, h⟩ <;> rw [h]
  · exact ⟨0, Nat.zero_le _, reads_zero rfl rfl⟩
  · obtain ⟨k, hk, hreads⟩ := linkRxStep_reads (.delivered d) (sensorAppend bs s)
    refine ⟨k, ?_, hreads⟩
    rw [sensorAppend_blk, sensorAppend_cfg] at hk
    omega

/-- An instruction that completes leaves the link, or it is the arrival of its frame. -/
theorem exec_link_cases {i : Instr} {s t : State} (h : exec i s = .next t) :
    t.link = s.link ∨ ∃ bs, encode s.cfg i = .rspFrame bs ∧ t = arrive bs s := by
  rcases exec_next_cases h with ⟨_, rfl⟩ | ⟨_, -, hr⟩ | harrive
  · exact .inl rfl
  · obtain ⟨r, v, -, -, rfl⟩ := execRd_next hr
    exact .inl (markRead_link r _)
  · exact .inr harrive

theorem isResponse_of_encode_rspFrame {c : Config} {i : Instr} {bs : List Byte} (h : encode c i = .rspFrame bs) :
    isResponse i = true := by
  cases i with
  | dataReport | replyReportingMode | replyDeviceMode | replyWorkingPeriod | replyFirmware => rfl
  | encode | send | recv | xchg | reset | rd | wr => cases h
  | setReportingQuery | setReportingActive | setSleep | setWork | setWorkingPeriod | queryFirmware | queryData =>
    cases h

/-- Settles O33: only an arrival adds to `S`, and only a LINK_RX step in a reception takes from it, into `RXBUF`. -/
theorem bytesReadAreStored : Obligations.BytesReadAreStored := by
  refine ⟨?noResponse, ?outside, ?reception, linkTxStep_incoming, linkRxStep_reads⟩
  case noResponse =>
    intro i s t h hi
    rcases exec_link_cases h with hl | ⟨bs, henc, -⟩
    · rw [hl]
    · simp [isResponse_of_encode_rspFrame henc] at hi
  case outside =>
    intro i s t h hp
    rcases exec_link_cases h with hl | ⟨bs, -, rfl⟩
    · exact ⟨[], by rw [hl, List.append_nil]⟩
    · exact ⟨bs, by rw [arrive_of_not_rx bs hp, sensorAppend_incoming]⟩
  case reception =>
    intro i s t bs h henc _
    have ht : t = arrive bs s := by
      rw [(exec_of_encode_rspFrame henc).1] at h
      cases h
      rfl
    exact ht ▸ arrive_reads bs s

end Machine

end Sys2Proof
end

section
/-! SUPPORT. The frame formats and the instruction encodings (30_encoding.md R72 to R78, 40_frame_codec.md R101, R102): the
bytes of a frame by offset, `Decode_L` as an equation over them, and from it the two directions of decode and encode. -/

namespace Sys2Proof

/-! ### The bytes of a frame -/

/-- The bytes of a frame with every field free, the two markers and the checksum among them: R72's layout. -/
def rawFrame (head t : Byte) (pl : List Byte) (id0 id1 cs tail : Byte) : List Byte :=
  head :: t :: (pl ++ [id0, id1, cs, tail])

theorem encodeFrame_eq_rawFrame (c : Config) (t : Byte) (pl : List Byte) (id0 id1 : Byte) :
    encodeFrame c t pl id0 id1 = rawFrame c.head t pl id0 id1 (low8 (byteSum (pl ++ [id0, id1]))) c.tail := by
  simp [encodeFrame_eq, rawFrame]

/-- Every sequence of six bytes or more has R72's fields. -/
theorem exists_rawFrame {bs : List Byte} (h : 6 ≤ bs.length) :
    ∃ head t pl id0 id1 cs tail, bs = rawFrame head t pl id0 id1 cs tail := by
  obtain ⟨head, t, rest, rfl⟩ : ∃ head t rest, bs = head :: t :: rest := by
    rcases bs with _ | ⟨head, _ | ⟨t, rest⟩⟩ <;> simp at h ⊢
  have hlast : (rest.drop (rest.length - 4)).length = 4 := by
    rw [List.length_drop]
    simp only [List.length_cons] at h
    omega
  obtain ⟨id0, id1, cs, tail, hd⟩ := List.length_eq_four.mp hlast
  exact ⟨head, t, rest.take (rest.length - 4), id0, id1, cs, tail, by rw [rawFrame, ← hd, List.take_append_drop]⟩

section RawFrame
variable (head t : Byte) (pl : List Byte) (id0 id1 cs tail : Byte)

@[simp] theorem rawFrame_length : (rawFrame head t pl id0 id1 cs tail).length = pl.length + 6 := by simp [rawFrame]

theorem rawFrame_head : (rawFrame head t pl id0 id1 cs tail)[0]? = some head := rfl

theorem rawFrame_type : (rawFrame head t pl id0 id1 cs tail)[1]? = some t := rfl

theorem rawFrame_payload {i : Nat} (h : i < pl.length) : (rawFrame head t pl id0 id1 cs tail)[2 + i]? = pl[i]? := by
  rw [Nat.add_comm, rawFrame, List.getElem?_cons_succ, List.getElem?_cons_succ, List.getElem?_append_left h]

/-- The bytes after the payload. -/
theorem rawFrame_trailer (i : Nat) :
    (rawFrame head t pl id0 id1 cs tail)[pl.length + (i + 2)]? = [id0, id1, cs, tail][i]? := by
  rw [← Nat.add_assoc, rawFrame, List.getElem?_cons_succ, List.getElem?_cons_succ,
    List.getElem?_append_right (Nat.le_add_right _ _), Nat.add_sub_cancel_left]

theorem rawFrame_id0 : (rawFrame head t pl id0 id1 cs tail)[pl.length + 2]? = some id0 := rawFrame_trailer (i := 0) ..

theorem rawFrame_id1 : (rawFrame head t pl id0 id1 cs tail)[pl.length + 3]? = some id1 := rawFrame_trailer (i := 1) ..

theorem rawFrame_checksum : (rawFrame head t pl id0 id1 cs tail)[pl.length + 4]? = some cs :=
  rawFrame_trailer (i := 2) ..

theorem rawFrame_tail : (rawFrame head t pl id0 id1 cs tail)[pl.length + 5]? = some tail :=
  rawFrame_trailer (i := 3) ..

@[simp] theorem slice_rawFrame_payload : slice (rawFrame head t pl id0 id1 cs tail) 2 (pl.length + 1) = pl := by
  simp [slice, rawFrame]

/-- The bytes that the checksum covers (R100). -/
@[simp] theorem slice_rawFrame_body :
    slice (rawFrame head t pl id0 id1 cs tail) 2 (pl.length + 3) = pl ++ [id0, id1] := by
  simp [slice, rawFrame, List.take_append]

@[simp] theorem checksum_rawFrame : checksum (rawFrame head t pl id0 id1 cs tail) = low8 (byteSum (pl ++ [id0, id1])) := by
  rw [checksum, rawFrame_length, Nat.add_sub_assoc (by decide), slice_rawFrame_body]

/-- `Decode_L` as an equation over the fields: the three checks in order, then the frame (R102). -/
theorem decodeFrame_rawFrame (c : Config) :
    decodeFrame c (pl.length + 6) (rawFrame head t pl id0 id1 cs tail) =
      if head ≠ c.head then .error .invalidHead
      else if tail ≠ c.tail then .error .invalidTail
      else if cs ≠ low8 (byteSum (pl ++ [id0, id1])) then .error .checksumMismatch
      else .ok { type := t, pl := pl, id0 := id0, id1 := id1 } := by
  simp only [decodeFrame, List.getD_eq_getElem?_getD, rawFrame_length, ne_eq, not_true_eq_false, if_false,
    Nat.reduceSubDiff, rawFrame_head, rawFrame_type, rawFrame_id0, rawFrame_id1, rawFrame_checksum,
    rawFrame_tail, slice_rawFrame_payload, slice_rawFrame_body, Option.some.injEq, Option.getD_some]

end RawFrame

@[simp] theorem checksum_encodeFrame (c : Config) (t : Byte) (pl : List Byte) (id0 id1 : Byte) :
    checksum (encodeFrame c t pl id0 id1) = low8 (byteSum (pl ++ [id0, id1])) := by
  rw [encodeFrame_eq_rawFrame, checksum_rawFrame]

/-- Settles O1: the encoded frame is R72's layout, read at each offset. -/
theorem frameLayoutByOffset : Obligations.FrameLayoutByOffset := by
  intro c t pl id0 id1 f
  have hcs : checksum f = low8 (byteSum (pl ++ [id0, id1])) := checksum_encodeFrame ..
  have hf : f = rawFrame c.head t pl id0 id1 (checksum f) c.tail := by
    rw [hcs]
    exact encodeFrame_eq_rawFrame ..
  refine ⟨encodeFrame_length .., rfl, rfl, fun i hi => ?_, ?_, ?_, ?_, ?_, ?_⟩
  · rw [hf, rawFrame_payload (h := hi)]
  · rw [hf, rawFrame_id0]
  · rw [hf, rawFrame_id1]
  · rw [hf, rawFrame_checksum, checksum_rawFrame, hcs]
  · rw [hf, rawFrame_tail]
  · rw [hcs]
    exact BitVec.toNat_ofNat ..

/-- A frame that is built decodes to its fields (R108). -/
theorem decodeFrame_encodeFrame (c : Config) (t : Byte) (pl : List Byte) (id0 id1 : Byte) :
    decodeFrame c (pl.length + 6) (encodeFrame c t pl id0 id1) = .ok { type := t, pl := pl, id0 := id0, id1 := id1 } := by
  simp [encodeFrame_eq_rawFrame, decodeFrame_rawFrame]

/-- A frame that decodes is built from its fields (R102). -/
theorem encodeFrame_of_decodeFrame {c : Config} {L : Nat} {bs : List Byte} {f : Frame} (hL : 6 ≤ L)
    (h : decodeFrame c L bs = .ok f) : encodeFrame c f.type f.pl f.id0 f.id1 = bs := by
  obtain ⟨rfl, -⟩ := decodeFrame_ok hL h
  obtain ⟨head, t, pl, id0, id1, cs, tail, rfl⟩ := exists_rawFrame hL
  rw [rawFrame_length, decodeFrame_rawFrame] at h
  split_ifs at h with hhead htail hcs
  cases h
  rw [encodeFrame_eq_rawFrame, not_not.mp hhead, not_not.mp htail, not_not.mp hcs]

/-- The payload of an accepted frame, for lengths that no frame has as well. -/
theorem decodeFrame_pl_length_le {c : Config} {L : Nat} {bs : List Byte} {f : Frame} (h : decodeFrame c L bs = .ok f) :
    f.pl.length ≤ L - 6 := by
  unfold decodeFrame at h
  split_ifs at h
  cases h
  simp only [slice, List.length_take, List.length_drop]
  omega

/-! ### Command frames (R73) -/

/-- The zero bytes of a command's payload say nothing. -/
theorem decodeCommandPayload_commandPayload (c : Config) (sub rw arg id0 id1 : Byte) :
    decodeCommandPayload (commandPayload c sub rw arg) id0 id1 = decodeCommandPayload [sub, rw, arg] id0 id1 := by
  simp [decodeCommandPayload, commandPayload]

/-- A command frame of a legal length decodes as its three payload bytes do. -/
theorem decode_encodeCommand {c : Config} (hc : c.legal) (sub rw arg id0 id1 : Byte) :
    decode c (encodeCommand c sub rw arg id0 id1) = decodeCommandPayload [sub, rw, arg] id0 id1 := by
  have hlen : c.nCmd = (commandPayload c sub rw arg).length + 6 := by
    have hN := hc.1
    simp only [commandPayload_length, Config.pCmd]
    omega
  simp only [decode, encodeCommand, decodeCommand, hlen, decodeFrame_encodeFrame, if_true,
    decodeCommandPayload_commandPayload]

/-- A payload that is a command's is the one that its instruction is encoded with. -/
theorem decodeCommandPayload_ok {pl : List Byte} {id0 id1 : Byte} {i : Instr}
    (h : decodeCommandPayload pl id0 id1 = .ok i) :
    ∃ sub rw arg n, pl = sub :: rw :: arg :: List.replicate n 0 ∧
      (∀ c, encode c i = encodeCommand c sub rw arg id0 id1) ∧ i.wellFormed = true := by
  unfold decodeCommandPayload at h
  split at h
  next sub rw arg rest =>
    split_ifs at h with hrest h1 h2 h3 h4 h5 h6 h7
    all_goals
      cases h
      refine ⟨sub, rw, arg, rest.length, by rw [← not_not.mp hrest], fun c => ?_, rfl⟩
      simp_all [encode]
  next => cases h

/-- A command frame that decodes is the encoding of its instruction, which is well-formed. -/
theorem encode_of_decodeCommand {c : Config} {bs : List Byte} {i : Instr} (h : decodeCommand c bs = .ok i) :
    encode c i = .cmdFrame bs ∧ i.wellFormed = true := by
  unfold decodeCommand at h
  split at h
  next => cases h
  next f hf =>
    split_ifs at h with ht
    obtain ⟨sub, rw, arg, n, hpl, henc, hwf⟩ := decodeCommandPayload_ok h
    have hlen : f.pl.length = n + 3 := by simp [hpl]
    have hle := decodeFrame_pl_length_le hf
    have hL : 6 ≤ c.nCmd := by omega
    have hn : c.pCmd - 3 = n := by
      have := (decodeFrame_ok hL hf).2
      simp only [Config.pCmd]
      omega
    refine ⟨?_, hwf⟩
    rw [henc, encodeCommand, commandPayload, hn, ← hpl, ← ht, encodeFrame_of_decodeFrame hL hf]

/-! ### Response frames (R74) -/

section Response
variable (c : Config) (p0 p1 p2 p3 id0 id1 cs : Byte)

theorem decodeResponse_data :
    decodeResponse c (responseBytes c c.typeData p0 p1 p2 p3 id0 id1 cs) = .ok (.dataReport p0 p1 p2 p3 id0 id1 cs) := by
  simp [decodeResponse, responseBytes]

/-- With the two response types apart, a reply is told by its sub-command. -/
theorem decodeResponse_reply (h : c.typeData ≠ c.typeReply) :
    decodeResponse c (responseBytes c c.typeReply p0 p1 p2 p3 id0 id1 cs) =
      if p0 = subReportingMode then .ok (.replyReportingMode p1 p2 p3 id0 id1 cs)
      else if p0 = subDeviceMode then .ok (.replyDeviceMode p1 p2 p3 id0 id1 cs)
      else if p0 = subWorkingPeriod then .ok (.replyWorkingPeriod p1 p2 p3 id0 id1 cs)
      else if p0 = subFirmware then .ok (.replyFirmware p1 p2 p3 id0 id1 cs)
      else .error .unknownReply := by
  simp [decodeResponse, responseBytes, h.symm]

end Response

/-- A response frame that decodes is the encoding of its instruction, which is well-formed. -/
theorem encode_of_decodeResponse {c : Config} {bs : List Byte} {i : Instr} (h : decodeResponse c bs = .ok i) :
    encode c i = .rspFrame bs ∧ i.wellFormed = true := by
  unfold decodeResponse at h
  split at h
  next =>
    split_ifs at h with hhead htail
    all_goals
      cases h
      refine ⟨?_, rfl⟩
      simp_all [encode, responseBytes]
  next => cases h

/-! ### Every instruction -/

/-- A defined opcode that decodes is the encoding of its instruction (R76). -/
theorem encode_of_decodeOpcode {op : Byte} {i : Instr} (c : Config) (h : decodeOpcode op = .ok i) :
    encode c i = .hostWrite 0x00 op ∧ i.wellFormed = true := by
  unfold decodeOpcode at h
  split_ifs at h with hop hop hop hop hop
  all_goals
    cases h
    subst hop
    exact ⟨rfl, rfl⟩

/-- Settles O8: the decoder's equation of each format, at the values that the row of the instruction has. -/
theorem decodeOfEncodeIsIdentity : Obligations.DecodeOfEncodeIsIdentity := by
  intro c i hc htypes hwf
  cases i with
  | encode | send | recv | xchg | reset | rd => rfl
  | wr a v => exact if_neg (bne_iff_ne.mp hwf)
  | setReportingQuery | setReportingActive | setSleep | setWork | setWorkingPeriod | queryFirmware | queryData =>
    exact decode_encodeCommand hc ..
  | dataReport => exact decodeResponse_data ..
  | replyReportingMode | replyDeviceMode | replyWorkingPeriod | replyFirmware =>
    exact decodeResponse_reply (h := htypes) ..

/-- Settles O9: format by format, what is accepted is built from the fields that were read. -/
theorem encodeOfDecodeIsIdentity : Obligations.EncodeOfDecodeIsIdentity := by
  intro c tr i h
  cases tr with
  | hostRead a =>
    cases h
    exact ⟨rfl, rfl⟩
  | hostWrite a v =>
    simp only [decode] at h
    split_ifs at h with ha
    · exact ha ▸ encode_of_decodeOpcode c h
    · cases h
      exact ⟨rfl, bne_iff_ne.mpr ha⟩
  | cmdFrame bs => exact encode_of_decodeCommand h
  | rspFrame bs => exact encode_of_decodeResponse h

/-- Settles O10: the ten words are closed terms, which the decoder evaluates. -/
theorem specWordsDecode : Obligations.SpecWordsDecode := by
  unfold Obligations.SpecWordsDecode
  decide

end Sys2Proof
end

section
/-! SUPPORT. The host's instructions one after the other (30_encoding.md R77, R81 to R83): reserved opcodes, runs of
configuration writes, and the expansions of `LOADPL`, `CMD`, `LISTEN` and `WAIT`. -/

namespace Sys2Proof.Machine

/-! ### A write to `CTRL` as an event (R77, R170) -/

/-- The decoder and the block read the same opcodes. -/
theorem runEvent_hostWrite_ctrl (op : Byte) (s : State) : runEvent (.fetch (.hostWrite 0x00 op)) s = ctrlWrite op s := by
  by_cases h : isOpcode op = true
  · rcases isOpcode_eq_true.mp h with rfl | rfl | rfl | rfl | rfl <;> rfl
  · rw [Bool.not_eq_true] at h
    rw [ctrlWrite_reserved h]
    exact runEvent_fetch_error s (decodeOpcode_reserved h)

theorem whenIdle_next_ne_reservedOpcode (s t : State) : whenIdle s (.next t) ≠ .fault .reservedOpcode := by
  unfold whenIdle
  split <;> simp

/-- Settles O11: a reserved opcode does not decode; a defined one is guarded by the busy rule alone, or by nothing. -/
theorem reservedOpcodeFaults : Obligations.ReservedOpcodeFaults := by
  intro s op write
  have hwrite : write s = ctrlWrite op s := runEvent_hostWrite_ctrl op s
  rw [hwrite]
  refine ⟨fun h => ctrlWrite_reserved (isOpcode_of_reserved h), fun h => ?defined, fun h hb => ?busy⟩
  case defined =>
    rcases h with rfl | rfl | rfl | rfl | rfl
    · exact whenIdle_next_ne_reservedOpcode s _
    · exact whenIdle_next_ne_reservedOpcode s _
    · exact whenIdle_next_ne_reservedOpcode s _
    · exact whenIdle_next_ne_reservedOpcode s _
    · exact fun h => by cases h
  case busy => rcases h with rfl | rfl | rfl | rfl <;> exact whenIdle_busy _ hb

/-! ### Runs of configuration writes (R27, R81) -/

/-- A run of instructions completes when the first one does and the others do after it. -/
theorem runInstrs_cons_next {i : Instr} {is : List Instr} {s t : State} :
    runInstrs (i :: is) s = .next t ↔ ∃ u, hostExec i s = .next u ∧ runInstrs is u = .next t := by
  rw [runInstrs]
  cases hostExec i s <;> simp

/-- Registers and the bytes that the host writes to them, in order. -/
abbrev Writes := List (Reg × Byte)

/-- The host's instructions for the writes (R81). -/
def Writes.instrs (ws : Writes) : List Instr := ws.map fun w => wrReg w.1 w.2

/-- The block after the writes. -/
def Writes.apply (ws : Writes) (b : Block) : Block := ws.foldl (fun b w => writeReg w.1 w.2 b) b

/-- Every register written is a configuration register of the map (R40). -/
def Writes.Allowed (c : Config) (ws : Writes) : Prop := ∀ w ∈ ws, w.1.isConfig = true ∧ w.1.present c = true

theorem Writes.apply_append (ws ws' : Writes) (b : Block) : Writes.apply (ws ++ ws') b = ws'.apply (ws.apply b) :=
  List.foldl_append

/-- Configuration writes of an idle block, in a run not faulted, complete and change the block only. -/
theorem runInstrs_writes {ws : Writes} {s : State} (hf : s.faulted = none) (hb : s.blk.status.busy = false)
    (hws : ws.Allowed s.cfg) : runInstrs ws.instrs s = .next { s with blk := ws.apply s.blk } := by
  induction ws generalizing s with
  | nil => rfl
  | cons w ws ih =>
    obtain ⟨⟨hr, hp⟩, hws⟩ := List.forall_mem_cons.mp hws
    have hwr : hostExec (wrReg w.1 w.2) s = .next { s with blk := writeReg w.1 w.2 s.blk } :=
      hostExec_next.mpr ⟨hf, (execWr_config (regAt_addr hp) hr).trans (whenIdle_idle _ hb)⟩
    have hb' : (writeReg w.1 w.2 s.blk).status.busy = false := by rwa [writeReg_frame]
    exact runInstrs_cons_next.mpr ⟨_, hwr, ih (s := { s with blk := writeReg w.1 w.2 s.blk }) hf hb' hws⟩

/-! ### `LOADPL` (R82) -/

/-- The writes that `LOADPL` stands for. -/
def loadPlWrites (c : Config) (bytes : List Byte) : Writes :=
  ((List.finRange 16).filter fun i => i.val < c.pCmd).map fun i => (.txPl i, bytes.getD i.val 0)

theorem loadPlWrites_instrs (c : Config) (bytes : List Byte) : (loadPlWrites c bytes).instrs = loadPl c bytes :=
  List.map_map

theorem loadPlWrites_allowed (c : Config) (bytes : List Byte) : (loadPlWrites c bytes).Allowed c := by
  intro w hw
  obtain ⟨i, hi, rfl⟩ := List.mem_map.mp hw
  exact ⟨rfl, (List.mem_filter.mp hi).2⟩

/-- Writes to payload registers reach `TXPL` only. -/
theorem apply_txPl_writes (is : List (Fin 16)) (v : Nat → Byte) (b : Block) :
    Writes.apply (is.map fun i => (.txPl i, v i.val)) b =
      { b with txPl := is.foldl (fun pl i => pl.set i.val (v i.val)) b.txPl } := by
  induction is generalizing b with
  | nil => rfl
  | cons i is ih => exact ih (writeReg (.txPl i) (v i.val) b)

/-- Each index written holds the byte for that index, and the others stay. -/
theorem getElem?_foldl_set (is : List (Fin 16)) (v : Nat → Byte) (pl : List Byte) (j : Nat) :
    (is.foldl (fun pl i => pl.set i.val (v i.val)) pl)[j]? =
      if j < pl.length ∧ ∃ i ∈ is, i.val = j then some (v j) else pl[j]? := by
  induction is generalizing pl with
  | nil => simp
  | cons i is ih =>
    rw [List.foldl_cons, ih, List.length_set, List.getElem?_set]
    by_cases hij : i.val = j
    · subst hij
      by_cases hi : i.val < pl.length <;> simp [hi]
    · simp [hij]

/-- The payload registers after `LOADPL`, at any length that the map has room for. -/
theorem apply_loadPlWrites {c : Config} {bytes : List Byte} {b : Block} (hc : c.pCmd ≤ 16)
    (hpl : b.txPl.length = c.pCmd) (hlen : bytes.length ≤ c.pCmd) :
    (loadPlWrites c bytes).apply b = { b with txPl := bytes ++ List.replicate (c.pCmd - bytes.length) 0 } := by
  rw [loadPlWrites, apply_txPl_writes _ (bytes.getD · 0)]
  refine congrArg (fun pl => { b with txPl := pl }) (List.ext_getElem? fun j => ?_)
  rw [getElem?_foldl_set _ (bytes.getD · 0), hpl]
  by_cases hj : j < c.pCmd
  · have hwritten : ∃ i ∈ (List.finRange 16).filter fun i => i.val < c.pCmd, i.val = j :=
      ⟨⟨j, by omega⟩, by simpa using hj, rfl⟩
    rw [if_pos ⟨hj, hwritten⟩]
    by_cases hb : j < bytes.length
    · simp [List.getElem?_append_left hb, hb]
    · have hz : j - bytes.length < c.pCmd - bytes.length := by omega
      simp [List.getElem?_append_right (Nat.le_of_not_lt hb), hz, Nat.le_of_not_lt hb]
  · rw [if_neg fun h => hj h.1, List.getElem?_eq_none (by omega), List.getElem?_eq_none (by simp; omega)]

/-- Settles O49: `LOADPL` is a run of configuration writes, which reach `TXPL` only. -/
theorem loadPayloadExpansion : Obligations.LoadPayloadExpansion := by
  intro s bytes hf hb hN hpl hlen
  have hP : s.cfg.pCmd = 13 := by rw [Config.pCmd, hN]
  have hload := apply_loadPlWrites (c := s.cfg) (bytes := bytes) (b := s.blk) (by omega) (by omega) (by omega)
  rw [hP] at hload
  refine ⟨{ s with blk := { s.blk with txPl := bytes ++ List.replicate (13 - bytes.length) 0 } }, ?_, rfl, rfl⟩
  rw [← loadPlWrites_instrs, runInstrs_writes hf hb (loadPlWrites_allowed _ _), hload]

/-! ### `CMD` (R82, R83) -/

/-- The writes of a command: the ID bytes, then those of `CMD` (R82; log entry 7). -/
def cmdWrites (c : Config) (name : CommandName) (id0 id1 : Byte) : Writes :=
  [(.txId0, id0), (.txId1, id1), (.txType, c.typeCmd)] ++ loadPlWrites c name.bytes ++ [(.expType, name.expected c)]

theorem cmdWrites_instrs (c : Config) (name : CommandName) (id0 id1 : Byte) :
    [.wr 0x05 id0, .wr 0x06 id1] ++ cmdInstrs c name = (cmdWrites c name id0 id1).instrs ++ [.xchg] := by
  simp [cmdWrites, cmdInstrs, Writes.instrs, ← loadPlWrites_instrs, wrReg, Reg.addr]

theorem cmdWrites_allowed (c : Config) (name : CommandName) (id0 id1 : Byte) : (cmdWrites c name id0 id1).Allowed c := by
  intro w hw
  simp only [cmdWrites, List.mem_append, List.mem_cons, List.not_mem_nil, or_false] at hw
  obtain ((rfl | rfl | rfl) | hpl) | rfl := hw
  · exact ⟨rfl, rfl⟩
  · exact ⟨rfl, rfl⟩
  · exact ⟨rfl, rfl⟩
  · exact loadPlWrites_allowed c _ w hpl
  · exact ⟨rfl, rfl⟩

/-- The writes of a command load its registers (R82, R130). -/
theorem apply_cmdWrites {c : Config} {name : CommandName} {sub rw arg : Byte} {b : Block} (id0 id1 : Byte)
    (hc : c.pCmd ≤ 16) (hpl : b.txPl.length = c.pCmd) (hP : 3 ≤ c.pCmd) (hname : name.bytes = [sub, rw, arg]) :
    (cmdWrites c name id0 id1).apply b = loadCommand c sub rw arg id0 id1 (name.expected c) b := by
  rw [cmdWrites, Writes.apply_append, Writes.apply_append, hname, apply_loadPlWrites hc]
  · rfl
  · exact hpl
  · exact hP

/-- The host's own instructions of a command end where the command frame's step does (R82, R138). -/
theorem runInstrs_cmd {s : State} {name : CommandName} {sub rw arg : Byte} (id0 id1 : Byte) (hf : s.faulted = none)
    (hb : s.blk.status.busy = false) (hc : s.cfg.pCmd ≤ 16) (hpl : s.blk.txPl.length = s.cfg.pCmd)
    (hP : 3 ≤ s.cfg.pCmd) (hname : name.bytes = [sub, rw, arg]) :
    ∃ t, runCommand sub rw arg id0 id1 (name.expected s.cfg) s = .next t ∧
      runInstrs ([.wr 0x05 id0, .wr 0x06 id1] ++ cmdInstrs s.cfg name) s = .next t := by
  refine ⟨_, whenIdle_idle _ hb, ?_⟩
  rw [cmdWrites_instrs, runInstrs_append _ _ (runInstrs_writes hf hb (cmdWrites_allowed _ _ _ _)),
    apply_cmdWrites id0 id1 hc hpl hP hname]
  refine runInstrs_cons_next.mpr ⟨_, ?_, rfl⟩
  exact hostExec_next.mpr ⟨hf, whenIdle_idle _ hb⟩

/-! ### Host programs (R18, R82) -/

/-- With the empty schedule the lines of a program that are instructions run one after the other. -/
theorem runLines_instrs {is : List Instr} {s t : State} (fuel : Nat) (ls : List HostLine)
    (h : runInstrs is s = .next t) : runLines fuel [] (is.map .instr ++ ls) s = runLines fuel [] ls t := by
  induction is generalizing s with
  | nil =>
    cases h
    rfl
  | cons i is ih =>
    obtain ⟨u, hu, hrest⟩ := runInstrs_cons_next.mp h
    have hline : runLine fuel (.instr i) s = .finished u := congrArg HostRun.ofResult hu
    rw [← ih hrest]
    simp only [List.map_cons, List.cons_append, runLines, List.headD_nil, agentSteps, andThen_finished, hline,
      List.tail_nil]

/-- A program of a WAIT alone: a WAIT that ends leaves a run that is not faulted (R232). -/
theorem runLines_wait (fuel : Nat) (s : State) : runLines fuel [] [.wait] s = runWait fuel s := by
  have hline : runLines fuel [] [.wait] s = (runWait fuel s).andThen (runLines fuel [] []) := rfl
  rw [hline]
  cases h : runWait fuel s with
  | finished t => simp [runLines, (runWait_finished h).2]
  | waiting | fault | refused => rfl

/-- A command frame's step is the expansion of its name: as instructions up to the WAIT, and as a host program. -/
theorem exec_eq_cmd_expansion {s : State} {name : CommandName} {sub rw arg : Byte} {i : Instr} (id0 id1 : Byte)
    (hf : s.faulted = none) (hb : s.blk.status.busy = false) (hc : s.cfg.pCmd ≤ 16)
    (hpl : s.blk.txPl.length = s.cfg.pCmd) (hP : 3 ≤ s.cfg.pCmd) (hname : name.bytes = [sub, rw, arg])
    (hexec : exec i s = runCommand sub rw arg id0 id1 (name.expected s.cfg) s) :
    runInstrs ([.wr 0x05 id0, .wr 0x06 id1] ++ cmdInstrs s.cfg name) s = exec i s ∧
    ∀ fuel, runLines fuel [] ([.instr (.wr 0x05 id0), .instr (.wr 0x06 id1)] ++ cmdLines s.cfg name) s =
      (HostRun.ofResult (exec i s)).andThen (runWait fuel) := by
  obtain ⟨t, hrun, hinstrs⟩ := runInstrs_cmd id0 id1 hf hb hc hpl hP hname
  rw [hexec, hrun]
  exact ⟨hinstrs, fun fuel => (runLines_instrs fuel [.wait] hinstrs).trans (runLines_wait fuel t)⟩

/-- Settles O50: the writes of the expansion load the command's registers, and its XCHG is the command's. -/
theorem commandFrameIsItsExpansion : Obligations.CommandFrameIsItsExpansion := by
  intro s n id0 id1 hf hb hN hpl p hp
  have hP : s.cfg.pCmd = 13 := by rw [Config.pCmd, hN]
  simp only [List.mem_cons, List.not_mem_nil, or_false] at hp
  rcases hp with rfl | rfl | rfl | rfl | rfl | rfl | rfl <;>
    exact exec_eq_cmd_expansion id0 id1 hf hb (by omega) (by omega) (by omega) rfl rfl

/-! ### `LISTEN` and `WAIT` (R82, R253) -/

/-- The state after a poll of `STATUS`. -/
def polled (s : State) : State := { s with port := { s.port with rdData := some s.blk.status.toByte } }

/-- `WAIT` polls once; while `BUSY = 1` an agent moves and it goes on (R82). -/
theorem runWait_succ {s : State} (fuel : Nat) (hf : s.faulted = none) :
    runWait (fuel + 1) s =
      if s.blk.status.busy then (HostRun.ofResult (step (polled s))).andThen (runWait fuel) else .finished (polled s) := by
  have hpoll : hostExec (.rd 0x01) s = .next (polled s) :=
    hostExec_next.mpr ⟨hf, execRd_addr (r := .status) rfl rfl rfl⟩
  rw [runWait, hpoll, ofResult_next, andThen_finished, ← Status.busy_of_toByte]
  rfl

/-- On a stuck operation a WAIT polls to its bound, and only the byte read changes (R253). -/
theorem runWait_of_isStuck (fuel : Nat) {s : State} (h : s.isStuck) :
    ∃ t, runWait fuel s = .waiting t ∧ t.blk = s.blk ∧ t.link = s.link ∧ t.agenda = [] := by
  induction fuel generalizing s with
  | zero => exact ⟨s, rfl, rfl, rfl, h.2.1⟩
  | succ fuel ih =>
    obtain ⟨hb, ha, hf⟩ := h
    obtain ⟨t, ht, hsame⟩ := ih (s := polled s) ⟨hb, ha, hf⟩
    refine ⟨t, ?_, hsame⟩
    rw [runWait_succ fuel hf, if_pos hb, step_of_agenda_nil (s := polled s) hf ha, ofResult_next, andThen_finished, ht]

/-- `LISTEN` up to its WAIT is a reception with a measurement expected (R82, R173). -/
theorem runInstrs_listen {s : State} (hf : s.faulted = none) (hb : s.blk.status.busy = false) :
    runInstrs [wrReg .expType s.cfg.typeData, .recv] s =
      .next { s with blk := begin .rx false (clearRx { s.blk with expType := s.cfg.typeData }) } := by
  have hexp := runInstrs_writes (ws := [(.expType, s.cfg.typeData)]) hf hb
    (List.forall_mem_singleton.mpr ⟨rfl, rfl⟩)
  refine (runInstrs_append _ [.recv] hexp).trans (runInstrs_cons_next.mpr ⟨_, ?_, rfl⟩)
  exact hostExec_next.mpr ⟨hf, whenIdle_idle _ hb⟩

/-- Settles O51: the instructions of LISTEN, one poll of an idle block, what an ended WAIT shows, and a stuck one. -/
theorem listenAndWaitExpansions : Obligations.ListenAndWaitExpansions := by
  refine ⟨fun s fuel hf hb => ?listen, fun s fuel hf hb => ?poll, fun s t fuel => runWait_finished,
    fun s fuel ls hstuck => ?stuck⟩
  case listen => exact (runLines_instrs fuel [.wait] (runInstrs_listen hf hb)).trans (runLines_wait fuel _)
  case poll => rw [runWait_succ fuel hf, if_neg (Bool.eq_false_iff.mp hb), polled]
  case stuck =>
    obtain ⟨t, ht, hsame⟩ := runWait_of_isStuck fuel hstuck
    exact ⟨t, congrArg (HostRun.andThen · (runLines fuel [] ls)) ht, hsame⟩

end Sys2Proof.Machine
end

section
/-! SUPPORT. The verdict of `Decode_L` (40_frame_codec.md R100 to R113): each error by the first check that fails, and what
the checksum of a frame tells apart: one changed byte always, a change that keeps the sum never. -/

namespace Sys2Proof

/-! ### The checksum byte -/

theorem byteSum_eq_sum (bs : List Byte) : byteSum bs = (bs.map BitVec.toNat).sum := by
  induction bs with
  | nil => rfl
  | cons b bs ih => rw [byteSum, ih, List.map_cons, List.sum_cons]

theorem byteSum_perm {xs ys : List Byte} (h : xs.Perm ys) : byteSum xs = byteSum ys := by
  rw [byteSum_eq_sum, byteSum_eq_sum, (h.map BitVec.toNat).sum_eq]

theorem low8_eq_low8 {m n : Nat} : low8 m = low8 n ↔ m % 256 = n % 256 := by
  rw [low8, low8, ← BitVec.toNat_inj, BitVec.toNat_ofNat, BitVec.toNat_ofNat]

/-- `low8` of a sum is the sum of the bytes modulo 256 (R9, R100). -/
theorem low8_byteSum_cons (b : Byte) (bs : List Byte) : low8 (byteSum (b :: bs)) = b + low8 (byteSum bs) := by
  rw [low8, low8, byteSum, BitVec.ofNat_add, BitVec.ofNat_toNat, BitVec.setWidth_eq]

/-- One changed byte moves the sum by the difference of the two bytes. -/
theorem byteSum_set {bs : List Byte} {i : Nat} {old : Byte} (v : Byte) (h : bs[i]? = some old) :
    byteSum (bs.set i v) + old.toNat = byteSum bs + v.toNat := by
  induction bs generalizing i with
  | nil => cases h
  | cons b bs ih =>
    cases i with
    | zero =>
      cases h
      simp only [List.set_cons_zero, byteSum]
      omega
    | succ i =>
      have := ih h
      simp only [List.set_cons_succ, byteSum]
      omega

/-- The difference of two bytes is below 256, so one changed byte changes the low byte of the sum (R109). -/
theorem low8_byteSum_set_ne {bs : List Byte} {i : Nat} {old v : Byte} (h : bs[i]? = some old) (hv : v ≠ old) :
    low8 (byteSum (bs.set i v)) ≠ low8 (byteSum bs) := by
  have hsum := byteSum_set v h
  have hne : v.toNat ≠ old.toNat := mt BitVec.eq_of_toNat_eq hv
  rw [Ne, low8_eq_low8]
  omega

/-! ### The round trip (R108, R113) -/

/-- Settles O2: the round trip, at the length that the payload gives. -/
theorem encodeThenDecodeIsIdentity : Obligations.EncodeThenDecodeIsIdentity := by
  intro c L t pl id0 id1 hL hpl
  obtain rfl : L = pl.length + 6 := by omega
  exact decodeFrame_encodeFrame ..

/-- Settles O3: extensionality of lists, and the decoder as an inverse of the encoder. -/
theorem encodeIsInjective : Obligations.EncodeIsInjective := by
  refine ⟨fun f g hlen => ⟨fun h _ _ => by rw [h], fun h => ?ext⟩, fun c t t' pl pl' id0 id0' id1 id1' h => ?inj⟩
  case ext =>
    refine List.ext_getElem? fun i => ?_
    by_cases hi : i < f.length
    · exact h i hi
    · rw [List.getElem?_eq_none (by omega), List.getElem?_eq_none (by omega)]
  case inj =>
    have hlen : pl.length = pl'.length := by simpa using congrArg List.length h
    have hdec := decodeFrame_encodeFrame c t pl id0 id1
    rw [h, hlen, decodeFrame_encodeFrame] at hdec
    cases hdec
    exact ⟨rfl, rfl, rfl, rfl⟩

/-! ### The verdict (R102 to R107) -/

/-- `Decode_L` with its two slices as so many bytes from offset 2 on (R102). -/
theorem decodeFrame_eq {L : Nat} (hL : 6 ≤ L) (c : Config) (b : List Byte) :
    decodeFrame c L b =
      if b.length ≠ L then .error .invalidLength
      else if b[0]? ≠ some c.head then .error .invalidHead
      else if b[L - 1]? ≠ some c.tail then .error .invalidTail
      else if b[L - 2]? ≠ some (low8 (byteSum ((b.drop 2).take (L - 4)))) then .error .checksumMismatch
      else .ok { type := b.getD 1 0, pl := (b.drop 2).take (L - 6), id0 := b.getD (L - 4) 0, id1 := b.getD (L - 3) 0 } := by
  have hbody : L - 3 + 1 - 2 = L - 4 := by omega
  have hpl : L - 5 + 1 - 2 = L - 6 := by omega
  simp only [decodeFrame, slice, hbody, hpl]

/-- A frame has given fields exactly when they are the bytes at R72's offsets. -/
theorem frameOfBytes_eq_iff {L : Nat} (hL : 6 ≤ L) {b : List Byte} (hlen : b.length = L) (f : Frame) :
    Frame.mk (b.getD 1 0) ((b.drop 2).take (L - 6)) (b.getD (L - 4) 0) (b.getD (L - 3) 0) = f ↔
      some f.type = b[1]? ∧ f.pl = (b.drop 2).take (L - 6) ∧ some f.id0 = b[L - 4]? ∧ some f.id1 = b[L - 3]? := by
  have hbyte {i : Nat} (hi : i < b.length) (v : Byte) : some v = b[i]? ↔ b.getD i 0 = v := by simp [hi, eq_comm]
  obtain ⟨t, pl, id0, id1⟩ := f
  rw [Frame.mk.injEq, hbyte (by omega), hbyte (by omega), hbyte (by omega), eq_comm (a := pl)]

/-- Settles O4: the checks one after the other; past the last, the frame's fields. -/
theorem decodeVerdictByFirstFailingCheck : Obligations.DecodeVerdictByFirstFailingCheck := by
  intro c L b hL cs
  have hdec : decodeFrame c L b = _ := decodeFrame_eq hL c b
  by_cases hlen : b.length = L
  case neg => simp [hdec, hlen]
  by_cases hhead : b[0]? = some c.head
  case neg => simp [hdec, hlen, hhead]
  by_cases htail : b[L - 1]? = some c.tail
  case neg => simp [hdec, hlen, hhead, htail]
  by_cases hcs : b[L - 2]? = some cs
  case neg => simp [hdec, hlen, hhead, htail, hcs, cs]
  simpa [hdec, hlen, hhead, htail, hcs, cs] using frameOfBytes_eq_iff hL hlen

/-! ### Changes of a frame (R109, R112) -/

/-- A changed byte outside `m` bytes from offset 2 is none of them. -/
theorem take_drop_set_of_outside {b : List Byte} {j m : Nat} (v : Byte) (h : j < 2 ∨ 2 + m ≤ j) :
    ((b.set j v).drop 2).take m = (b.drop 2).take m := by
  rw [List.drop_set]
  split
  next => rfl
  next hj => rw [List.take_set_of_le (by omega)]

/-- A changed byte from offset 2 on is changed among the bytes from there. -/
theorem take_drop_set_of_le {b : List Byte} {j m : Nat} (v : Byte) (h : 2 ≤ j) :
    ((b.set j v).drop 2).take m = ((b.drop 2).take m).set (j - 2) v := by
  rw [List.drop_set, if_neg (Nat.not_lt.mpr h), List.take_set]

/-- Settles O5: the first check that reads the changed byte is the first to fail; the type byte is read by none. -/
theorem singleByteCorruption : Obligations.SingleByteCorruption := by
  intro c L b fr j old v hL hdec hold hv
  obtain ⟨-, -, -, -, -, hok⟩ := decodeVerdictByFirstFailingCheck c L b hL
  obtain ⟨hlen, hhead, htail, hcs, htype, hpl, hid0, hid1⟩ := (hok fr).mp hdec
  obtain ⟨-, hhead', htail', hcs', -, hok'⟩ := decodeVerdictByFirstFailingCheck c L (b.set j v) hL
  have hlen' : (b.set j v).length = L := by rw [List.length_set, hlen]
  have hsame : (b.set j v)[j]? = some v := List.getElem?_set_self (List.getElem?_eq_some_iff.mp hold).1
  have hchanged {w : Byte} (hw : b[j]? = some w) : (b.set j v)[j]? ≠ some w := by
    rw [hsame, ← hw, hold]
    exact mt Option.some.inj hv
  have hother {i : Nat} (h : j ≠ i) : (b.set j v)[i]? = b[i]? := List.getElem?_set_ne h
  refine ⟨fun h2 hjL => hcs'.mpr ?covered, fun hj1 => ⟨(hok' _).mpr ?type, fun exp => rfl⟩,
    fun hj0 => hhead'.mpr ?head, fun hjL => htail'.mpr ?tail⟩
  case covered =>
    refine ⟨hlen', (hother (by omega)).trans hhead, (hother (by omega)).trans htail, ?_⟩
    by_cases hjcs : j = L - 2
    · subst hjcs
      rw [take_drop_set_of_outside v (.inr (by omega))]
      exact hchanged hcs
    · have hold' : ((b.drop 2).take (L - 4))[j - 2]? = some old := by
        rw [List.getElem?_take_of_lt (by omega), List.getElem?_drop, Nat.add_sub_cancel' h2, hold]
      rw [hother hjcs, hcs, take_drop_set_of_le v h2]
      exact fun h => low8_byteSum_set_ne hold' hv (Option.some.inj h).symm
  case type =>
    subst hj1
    have hbody (m : Nat) : ((b.set 1 v).drop 2).take m = (b.drop 2).take m :=
      take_drop_set_of_outside v (.inl (by decide))
    rw [hbody, hbody]
    exact ⟨hlen', (hother (by omega)).trans hhead, (hother (by omega)).trans htail, (hother (by omega)).trans hcs,
      hsame.symm, hpl, hid0.trans (hother (by omega)).symm, hid1.trans (hother (by omega)).symm⟩
  case head =>
    subst hj0
    exact ⟨hlen', hchanged hhead⟩
  case tail =>
    subst hjL
    exact ⟨hlen', (hother (by omega)).trans hhead, hchanged htail⟩

/-- Settles O6: the decoder reads the body through its sum, and the type byte not at all. -/
theorem sameSumIsUndetected : Obligations.SameSumIsUndetected := by
  intro c t' pl pl' id0 id1 id0' id1' hlen hsum
  have hcs : low8 (byteSum (pl ++ [id0, id1])) = low8 (byteSum (pl' ++ [id0', id1'])) := by
    rcases hsum with hsum | hperm
    · exact low8_eq_low8.mpr hsum.symm
    · rw [byteSum_perm hperm]
  have hdec := decodeFrame_encodeFrame c t' pl' id0' id1'
  rw [encodeFrame_eq, ← hcs, hlen] at hdec
  simpa using hdec

end Sys2Proof
end

section
/-! SUPPORT. A whole frame at a reception that has no byte yet (43_host_operations.md R183, R184, 60_exceptions.md R213,
R214): the frame's arrival completes the reception with the decoder's verdict, and a rejected frame gives no typed result. -/

namespace Sys2Proof

/-! ### The checks of a response frame (R74, R104) -/

/-- A response frame has both markers, so the checksum alone decides (R102). -/
theorem decodeFrame_responseBytes (c : Config) (t p0 p1 p2 p3 id0 id1 cs : Byte) :
    decodeFrame c 10 (responseBytes c t p0 p1 p2 p3 id0 id1 cs) =
      if cs = p0 + p1 + p2 + p3 + id0 + id1 then .ok { type := t, pl := [p0, p1, p2, p3], id0 := id0, id1 := id1 }
      else .error .checksumMismatch := by
  have hraw := decodeFrame_rawFrame c.head t [p0, p1, p2, p3] id0 id1 cs c.tail c
  have hsum : low8 (byteSum ([p0, p1, p2, p3] ++ [id0, id1])) = p0 + p1 + p2 + p3 + id0 + id1 := by
    have hnil : low8 (byteSum []) = 0 := rfl
    simp [low8_byteSum_cons, hnil, BitVec.add_assoc]
  rw [hsum, if_neg (not_not_intro rfl), if_neg (not_not_intro rfl), ite_not] at hraw
  exact hraw

namespace Machine

/-! ### A reception that waits for its first byte -/

/-- A reception that has no byte yet, with none waiting in `S` (R173, R183). -/
structure State.AwaitsFrame (s : State) : Prop where
  phase : s.blk.phase = .rx
  rxCnt : s.blk.rxCnt = 0
  rxBuf : s.blk.rxBuf = []
  incoming : s.link.incoming = []

/-- A frame of `N_RSP` bytes completes such a reception, and `S` is empty again (R183, R184). -/
theorem arrive_of_awaitsFrame {s : State} (h : s.AwaitsFrame) {bs : List Byte} (hne : bs ≠ [])
    (hlen : bs.length = s.cfg.nRsp) :
    arrive bs s = afterRx (rxComplete s.cfg { s.blk with rxBuf := bs, rxCnt := bs.length }) s := by
  obtain ⟨hphase, hcnt, hbuf, hin⟩ := h
  have hpos : 1 ≤ bs.length := List.length_pos_iff.mpr hne
  have hk : min (s.cfg.nRsp - s.blk.rxCnt) (s.link.incoming.length + bs.length) = bs.length := by
    simp [hcnt, hin, hlen]
  have hrx : RxEnabled bs.length (sensorAppend bs s) := ⟨hphase, by simp [hcnt, hlen], by simp⟩
  have hlink : (⟨[], s.link.outgoing⟩ : Link) = s.link := by rw [← hin]
  rw [arrive_eq_linkRxStep (by omega) hne, hk, linkRxStep_delivered hpos hrx, rxProgress_eq]
  simp [Block.received, sensorAppend, hcnt, hbuf, hin, ← hlen, hlink]

theorem rxComplete_error {c : Config} {b : Block} {e : ResultCode} (h : decodeFrame c c.nRsp b.rxBuf = .error e) :
    rxComplete c b = finish e b := by
  rw [rxComplete, h]

theorem rxComplete_ok {c : Config} {b : Block} {f : Frame} (h : decodeFrame c c.nRsp b.rxBuf = .ok f) :
    rxComplete c b =
      finish (typeCheck f b.expType) { b with rxFrame := some f, status := { b.status with rxValid := true } } := by
  rw [rxComplete, h]

/-- A reception that ended with an error: the host is handed no typed result, and keeps the frame that it sent (R157). -/
theorem afterRx_finish_error {code : ResultCode} (hcode : code ≠ .ok) (b : Block) (s : State) :
    afterRx (finish code b) s = { s with blk := finish code b, port := { s.port with typed := none } } := by
  simp [afterRx, typedResult, acceptedReply, hcode]

/-! ### Rejected responses (R104, R110, R213, R214) -/

section Rejected
variable {s : State} (h : s.AwaitsFrame) (hN : s.cfg.nRsp = 10) {t p0 p1 p2 p3 id0 id1 cs : Byte}
include h hN

/-- The arrival of a response frame, with the decoder's verdict still to be read. -/
theorem arrive_responseBytes :
    arrive (responseBytes s.cfg t p0 p1 p2 p3 id0 id1 cs) s = afterRx (rxComplete s.cfg
      { s.blk with rxBuf := responseBytes s.cfg t p0 p1 p2 p3 id0 id1 cs, rxCnt := 10 }) s :=
  arrive_of_awaitsFrame h (List.cons_ne_nil _ _) hN.symm

/-- A wrong checksum rejects the frame as a whole: no field is written (R104, R107). -/
theorem arrive_responseBytes_wrongChecksum (hcs : cs ≠ p0 + p1 + p2 + p3 + id0 + id1) :
    arrive (responseBytes s.cfg t p0 p1 p2 p3 id0 id1 cs) s = { s with
      blk := finish .checksumMismatch
        { s.blk with rxBuf := responseBytes s.cfg t p0 p1 p2 p3 id0 id1 cs, rxCnt := 10 }
      port := { s.port with typed := none } } := by
  have hdec := decodeFrame_responseBytes s.cfg t p0 p1 p2 p3 id0 id1 cs
  rw [if_neg hcs, ← hN] at hdec
  rw [arrive_responseBytes h hN, rxComplete_error hdec, afterRx_finish_error (by decide)]

/-- A frame of another type than the expected one passed every other check, so its fields are written (R110). -/
theorem arrive_responseBytes_otherType (hcs : cs = p0 + p1 + p2 + p3 + id0 + id1) (ht : s.blk.expType ≠ t) :
    arrive (responseBytes s.cfg t p0 p1 p2 p3 id0 id1 cs) s = { s with
      blk := finish .unexpectedResponse { s.blk with
        rxBuf := responseBytes s.cfg t p0 p1 p2 p3 id0 id1 cs
        rxCnt := 10
        rxFrame := some { type := t, pl := [p0, p1, p2, p3], id0 := id0, id1 := id1 }
        status := { s.blk.status with rxValid := true } }
      port := { s.port with typed := none } } := by
  have hdec := decodeFrame_responseBytes s.cfg t p0 p1 p2 p3 id0 id1 cs
  rw [if_pos hcs, ← hN] at hdec
  rw [arrive_responseBytes h hN, rxComplete_ok hdec, typeCheck, if_neg ht.symm, afterRx_finish_error (by decide)]

end Rejected

/-- Settles O54: each of the five is the arrival of its frame, which either check rejects. -/
theorem responsesRejected : Obligations.ResponsesRejected := by
  intro s p0 a b d id0 id1 cs hN hphase hcnt hbuf hin p hp window
  have h : s.AwaitsFrame := ⟨hphase, hcnt, hbuf, hin⟩
  have hexec : exec p.1 s = .next (arrive (responseBytes s.cfg p.2.1 p.2.2 a b d id0 id1 cs) s) := by
    simp only [List.mem_cons, List.not_mem_nil, or_false] at hp
    rcases hp with rfl | rfl | rfl | rfl | rfl <;> rfl
  rw [hexec]
  exact ⟨fun hcs => congrArg _ (arrive_responseBytes_wrongChecksum h hN hcs),
    fun hcs ht => congrArg _ (arrive_responseBytes_otherType h hN hcs ht)⟩

end Machine

end Sys2Proof
end

section
/-! SUPPORT. The bytes of a command frame (30_encoding.md R73, R78, 41_command_frames.md R130) and the exchange that the
frame starts on an idle block (R82, R138). -/

namespace Sys2Proof

/-! ### The bytes of a command frame (R73, R130) -/

/-- The zero bytes of a command are as many as its frame has room for (R73). -/
theorem commandPayload_eq (c : Config) (sub rw arg : Byte) :
    commandPayload c sub rw arg = [sub, rw, arg] ++ List.replicate (c.nCmd - 9) 0 := by
  rw [commandPayload, Config.pCmd, Nat.sub_sub]
  rfl

theorem byteSum_replicate_zero (k : Nat) : byteSum (List.replicate k 0) = 0 := by
  simp [byteSum_eq_sum]

/-- The checksum byte of a command: the zero bytes add nothing to it (R100, R130). -/
theorem low8_byteSum_commandBody (c : Config) (sub rw arg id0 id1 : Byte) :
    low8 (byteSum (commandPayload c sub rw arg ++ [id0, id1])) = sub + rw + arg + id0 + id1 := by
  have hzeros : byteSum (List.replicate (c.nCmd - 9) 0 ++ [id0, id1]) = byteSum [id0, id1] := by
    rw [byteSum_append, byteSum_replicate_zero, Nat.zero_add]
  have hnil : low8 (byteSum []) = 0#8 := rfl
  rw [commandPayload_eq, List.append_assoc]
  simp only [List.cons_append, List.nil_append, low8_byteSum_cons, hzeros, hnil, BitVec.add_zero, BitVec.add_assoc]

/-- A command frame byte by byte (R73). -/
theorem encodeFrame_commandPayload (c : Config) (t sub rw arg id0 id1 : Byte) :
    encodeFrame c t (commandPayload c sub rw arg) id0 id1 =
      [c.head, t, sub, rw, arg] ++ List.replicate (c.nCmd - 9) 0 ++
        [id0, id1, sub + rw + arg + id0 + id1, c.tail] := by
  rw [encodeFrame_eq, low8_byteSum_commandBody, commandPayload_eq]
  simp

namespace Machine

/-! ### The exchange that a command frame starts (R82, R138) -/

/-- Settles O47: all seven are `runCommand` of their own three bytes, whose frame is built from the registers loaded. -/
theorem commandFramesStartTheirExchange : Obligations.CommandFramesStartTheirExchange := by
  intro s n id0 id1 hb _ p hp
  have hrun : exec p.1 s = runCommand p.2.1 p.2.2.1 p.2.2.2.1 id0 id1 p.2.2.2.2 s ∧
      encode s.cfg p.1 = encodeCommand s.cfg p.2.1 p.2.2.1 p.2.2.2.1 id0 id1 := by
    simp only [List.mem_cons, List.not_mem_nil, or_false] at hp
    rcases hp with rfl | rfl | rfl | rfl | rfl | rfl | rfl <;> exact ⟨rfl, rfl⟩
  obtain ⟨hexec, henc⟩ := hrun
  refine ⟨_, hexec.trans (whenIdle_idle _ hb), encodeFrame_commandPayload .., henc, ?_⟩
  rw [← commandPayload_eq]
  rfl

end Machine

end Sys2Proof
end

section
/-! SUPPORT. What a reception that has ended hands to the host (42_response_frames.md R150 to R160): a frame accepted with the
expected type, its typed result, and the reply to a command sent before it. -/

namespace Sys2Proof.Machine

/-! ### The verdict OK (R150) -/

theorem decodeFrame_error_ne_ok {c : Config} {L : Nat} {bs : List Byte} {e : ResultCode}
    (h : decodeFrame c L bs = .error e) : e ≠ .ok := by
  rcases decodeFrame_error h with rfl | rfl | rfl | rfl <;> decide

theorem typeCheck_eq_ok {f : Frame} {exp : Byte} : typeCheck f exp = .ok ↔ f.type = exp := by
  unfold typeCheck
  split <;> simp [*]

/-- The block that has accepted a frame (R150, R184). -/
def Block.accepted (f : Frame) (b : Block) : Block :=
  finish .ok { b with rxFrame := some f, status := { b.status with rxValid := true } }

theorem rxComplete_accepted {c : Config} {b : Block} {f : Frame} (h : decodeFrame c c.nRsp b.rxBuf = .ok f)
    (ht : f.type = b.expType) : rxComplete c b = b.accepted f := by
  rw [rxComplete_ok h, typeCheck_eq_ok.mpr ht, Block.accepted]

/-- A reception that completes with OK has accepted a frame of the expected type (R150). -/
theorem rxComplete_result_ok {c : Config} {b : Block} (h : (rxComplete c b).status.result = .ok) :
    ∃ f, decodeFrame c c.nRsp b.rxBuf = .ok f ∧ f.type = b.expType := by
  rcases rxComplete_cases c b with ⟨e, he, hr⟩ | ⟨f, hf, hr⟩ <;> rw [hr, finish_result] at h
  · exact absurd h (decodeFrame_error_ne_ok he)
  · exact ⟨f, hf, typeCheck_eq_ok.mp h⟩

/-- Settles O31: OK comes from the type check of a decoded frame only, and the accepted block holds that frame. -/
theorem acceptedExactlyWhenExpected : Obligations.AcceptedExactlyWhenExpected := by
  intro c b b'
  have haccepted : ∀ f, decodeFrame c c.nRsp b.rxBuf = .ok f → f.type = b.expType →
      b'.status.result = .ok ∧ b'.status.rxValid = true ∧ b'.rxFrame = some f := fun f hf ht => by
    rw [show b' = b.accepted f from rxComplete_accepted hf ht]
    exact ⟨rfl, rfl, rfl⟩
  exact ⟨⟨rxComplete_result_ok, fun ⟨f, hf, ht⟩ => (haccepted f hf ht).1⟩, haccepted⟩

/-! ### The typed result (R151 to R159) -/

theorem isReplySub_iff {sub : Byte} :
    isReplySub sub = true ↔ sub = 0x02 ∨ sub = 0x06 ∨ sub = 0x07 ∨ sub = 0x08 := by
  simp only [isReplySub, subReportingMode, subDeviceMode, subWorkingPeriod, subFirmware, Bool.or_eq_true, beq_iff_eq]
  tauto

/-- Everything the typed decoder can give: a measurement, an acknowledgement, or the firmware date (R151 to R155). -/
theorem typedDecode_cases {c : Config} {toSet : Bool} {f : Frame} {y : Typed} (h : typedDecode c toSet f = some y) :
    4 ≤ f.pl.length ∧
      ((f.type = c.typeData ∧ y = typedMeasurement c f) ∨
       (f.type = c.typeReply ∧ f.type ≠ c.typeData ∧ isReplySub (f.pl.getD 0 0) = true ∧
        (y = .ack ∨ (f.pl.getD 0 0 = subFirmware ∧ y = typedDeviceInfo c f)))) := by
  unfold typedDecode at h
  split_ifs at h with hlen hdata hreply hdate <;> cases h
  · exact ⟨Nat.le_of_not_lt hlen, .inl ⟨hdata, rfl⟩⟩
  · exact ⟨Nat.le_of_not_lt hlen, .inr ⟨hreply.1, hdata, hreply.2, .inr ⟨hdate.1, rfl⟩⟩⟩
  · exact ⟨Nat.le_of_not_lt hlen, .inr ⟨hreply.1, hdata, hreply.2, .inl rfl⟩⟩

/-- A typed result is that of the frame in the field registers, after OK (R157). -/
theorem typedResult_eq_some {c : Config} {command : Option (List Byte)} {b : Block} {y : Typed}
    (h : typedResult c command b = some y) :
    b.status.result = .ok ∧ ∃ f, b.rxFrame = some f ∧ typedDecode c (answersSetCommand c command) f = some y := by
  unfold typedResult at h
  split at h
  next hok => exact ⟨hok.1, Option.bind_eq_some_iff.mp h⟩
  next => cases h

/-- The host's typed result after a reception has ended is the one of the block's registers (R150 to R157). -/
theorem afterRx_typed {b : Block} (h : b.phase = .idle) (s : State) :
    (afterRx b s).port.typed = typedResult s.cfg s.port.command b :=
  if_pos h

/-- A LINK_RX step that ends a reception fails it or completes it (R184, R185). -/
theorem linkRxStep_ends {o : ReadOutcome} {s : State} (hp : s.blk.phase = .rx)
    (hidle : (linkRxStep o s).blk.phase = .idle) :
    (∃ why, linkRxStep o s = afterRx (rxFail why s.blk) s) ∨
    ∃ bytes link, linkRxStep o s = afterRx (rxComplete s.cfg (s.blk.received bytes)) { s with link := link } := by
  rcases linkRxStep_cases o s with h | ⟨-, hfail⟩ | ⟨-, k, -, -, -, h⟩
  · simp [h, hp] at hidle
  · exact .inl hfail
  · rw [rxProgress_eq] at h
    split at h
    next => exact .inr ⟨_, _, h⟩
    next => simp [h, Block.received, hp] at hidle

/-- Settles O46: a failed reception gives no typed result, and a completed one the result of the frame it accepted. -/
theorem typedResultOnlyAfterOk : Obligations.TypedResultOnlyAfterOk := by
  intro o s y hp hidle hy
  rcases linkRxStep_ends hp hidle with ⟨why, h⟩ | ⟨bytes, link, h⟩ <;> rw [h] at hy ⊢
  · rw [afterRx_typed rfl] at hy
    cases (typedResult_eq_some hy).1
  · rw [afterRx_typed (rxComplete_frame ..).1] at hy
    obtain ⟨hok, f, hf, hdec⟩ := typedResult_eq_some hy
    obtain ⟨g, hg, ht⟩ := rxComplete_result_ok hok
    obtain rfl : g = f := by
      rw [rxComplete_accepted hg ht] at hf
      exact Option.some.inj hf
    obtain ⟨hlen, hcases⟩ := typedDecode_cases hdec
    rw [isReplySub_iff] at hcases
    exact ⟨hok, g, hf, ht, hlen, hcases⟩

/-- The typed result of a measurement report, whichever command was sent (R151). -/
theorem typedDecode_data (c : Config) (toSet : Bool) (p0 p1 p2 p3 id0 id1 : Byte) :
    typedDecode c toSet { type := c.typeData, pl := [p0, p1, p2, p3], id0 := id0, id1 := id1 } =
      some (.measurement (le16 p0 p1) (le16 p2 p3) (devId c.devIdOrder id0 id1)) := by
  simp [typedDecode, typedMeasurement]

/-- The typed result of a reply: none for an unknown sub-command; an acknowledgement, but for the firmware date where no
set command is answered (R152 to R155, R158, R159). -/
theorem typedDecode_reply {c : Config} (h : c.typeData ≠ c.typeReply) (toSet : Bool) (sub a b d id0 id1 : Byte) :
    typedDecode c toSet { type := c.typeReply, pl := [sub, a, b, d], id0 := id0, id1 := id1 } =
      if isReplySub sub = true then
        some (if sub = subFirmware ∧ toSet = false then .deviceInfo a b d (devId c.devIdOrder id0 id1) else .ack)
      else none := by
  simp [typedDecode, typedDeviceInfo, h.symm, apply_ite some]

/-- Which command a reply answers, as RepliesAccepted names it (R131 to R135, R158). -/
theorem answersSetCommand_iff {c : Config} {command : Option (List Byte)} :
    answersSetCommand c command = true ↔
      ∃ bs, command = some bs ∧ bs[1]? = some c.typeCmd ∧ bs[3]? = some 0x01 ∧
        (bs[2]? = some 0x02 ∨ bs[2]? = some 0x06 ∨ bs[2]? = some 0x08) := by
  simp only [answersSetCommand, Option.any_eq_true, isSetCommand, Bool.and_eq_true, Bool.or_eq_true, beq_iff_eq, and_assoc,
    or_assoc, rwSet, subReportingMode, subDeviceMode, subWorkingPeriod]

/-! ### Accepted responses (R150 to R155) -/

/-- The host's side after a frame was accepted: its typed result, and a reply answers the command (R151 to R155, R138). -/
def HostPort.afterAccepted (c : Config) (f : Frame) (p : HostPort) : HostPort :=
  { p with
    typed := typedDecode c (answersSetCommand c p.command) f
    command := if f.type = c.typeReply ∧ f.type ≠ c.typeData then none else p.command }

theorem afterRx_accepted (f : Frame) (b : Block) (s : State) :
    afterRx (b.accepted f) s = { s with blk := b.accepted f, port := s.port.afterAccepted s.cfg f } := by
  simp [afterRx, Block.accepted, typedResult, acceptedReply, HostPort.afterAccepted]

/-- A response frame with a right checksum and the expected type is accepted (R150). -/
theorem arrive_responseBytes_accepted {s : State} (h : s.AwaitsFrame) (hN : s.cfg.nRsp = 10)
    {t p0 p1 p2 p3 id0 id1 cs : Byte} (hcs : cs = p0 + p1 + p2 + p3 + id0 + id1) (ht : s.blk.expType = t) :
    arrive (responseBytes s.cfg t p0 p1 p2 p3 id0 id1 cs) s = { s with
      blk := Block.accepted { type := t, pl := [p0, p1, p2, p3], id0 := id0, id1 := id1 }
        { s.blk with rxBuf := responseBytes s.cfg t p0 p1 p2 p3 id0 id1 cs, rxCnt := 10 }
      port := s.port.afterAccepted s.cfg { type := t, pl := [p0, p1, p2, p3], id0 := id0, id1 := id1 } } := by
  have hdec := decodeFrame_responseBytes s.cfg t p0 p1 p2 p3 id0 id1 cs
  rw [if_pos hcs, ← hN] at hdec
  rw [arrive_responseBytes h hN, rxComplete_accepted hdec ht.symm, afterRx_accepted]

/-- The host's side after a measurement report was accepted: the typed result, and the command it held (R151). -/
theorem afterAccepted_data (c : Config) (p0 p1 p2 p3 id0 id1 : Byte) (p : HostPort) :
    p.afterAccepted c { type := c.typeData, pl := [p0, p1, p2, p3], id0 := id0, id1 := id1 } = { p with
      typed := some (.measurement (le16 p0 p1) (le16 p2 p3) (devId c.devIdOrder id0 id1)) } := by
  simp [HostPort.afterAccepted, typedDecode_data]

/-- Settles O52: the report is accepted, and the 16-bit assemblies of its bytes have the numbers named. -/
theorem dataReportAccepted : Obligations.DataReportAccepted := by
  intro s p0 p1 p2 p3 id0 id1 cs hN hphase hcnt hbuf hin hexp hcs
  have harrive := arrive_responseBytes_accepted ⟨hphase, hcnt, hbuf, hin⟩ hN hcs hexp
  rw [afterAccepted_data] at harrive
  refine ⟨_, _, _, congrArg _ harrive, le16_toNat p0 p1, le16_toNat p2 p3, fun hbe => ?be, fun hle => ?le⟩
  case be => rw [hbe, devId, le16_toNat, Nat.add_comm]
  case le => rw [hle, devId, le16_toNat]

/-- The host's side after a known reply was accepted: the typed result, and no command left to answer (R152 to R155). -/
theorem afterAccepted_reply {c : Config} (h : c.typeData ≠ c.typeReply) {sub : Byte} (hsub : isReplySub sub = true)
    (a b d id0 id1 : Byte) (p : HostPort) :
    p.afterAccepted c { type := c.typeReply, pl := [sub, a, b, d], id0 := id0, id1 := id1 } = { p with
      typed := some (if sub = subFirmware ∧ answersSetCommand c p.command = false then
        .deviceInfo a b d (devId c.devIdOrder id0 id1) else .ack)
      command := none } := by
  simp [HostPort.afterAccepted, typedDecode_reply h, hsub, h.symm]

/-- Settles O53: each of the four is the arrival of its frame, whose typed result is its row's where it answers no set
command. -/
theorem repliesAccepted : Obligations.RepliesAccepted := by
  intro s a b d id0 id1 cs hN hphase hcnt hbuf hin hexp htypes toSet p hp hcs t
  have hrow : exec p.1 s = .next (arrive (responseBytes s.cfg s.cfg.typeReply p.2.1 a b d id0 id1 cs) s) ∧
      isReplySub p.2.1 = true ∧
      p.2.2 = if p.2.1 = subFirmware then .deviceInfo a b d (devId s.cfg.devIdOrder id0 id1) else .ack := by
    simp only [List.mem_cons, List.not_mem_nil, or_false] at hp
    rcases hp with rfl | rfl | rfl | rfl <;> exact ⟨rfl, rfl, rfl⟩
  obtain ⟨hexec, hsub, hy⟩ := hrow
  have hset : answersSetCommand s.cfg s.port.command = true ↔ toSet := answersSetCommand_iff
  rw [hexec, arrive_responseBytes_accepted ⟨hphase, hcnt, hbuf, hin⟩ hN hcs hexp, afterAccepted_reply htypes hsub]
  refine ⟨fun h => ?set, fun h => ?other⟩
  case set =>
    rw [hset.mpr h, if_neg (by simp)]
    rfl
  case other =>
    rw [Bool.eq_false_iff.mpr (mt hset.mp h), hy]
    simp only [and_true]
    rfl

/-- Settles O57: the ten bytes are an encoded frame, which is accepted, and the typed decoder knows no such sub-command. -/
theorem unknownReplyHasNoTypedResult : Obligations.UnknownReplyHasNoTypedResult := by
  intro s p0 p1 p2 p3 id0 id1 hN hphase hcnt hbuf htypes hexp h2 h6 h7 h8 hin t
  have hlen : s.link.incoming.length = 10 := by simp [hin]
  have hrx : RxEnabled 10 s := ⟨hphase, by omega, by omega⟩
  have hdec : decodeFrame s.cfg s.cfg.nRsp (s.blk.received (s.link.incoming.take 10)).rxBuf =
      .ok { type := s.cfg.typeReply, pl := [p0, p1, p2, p3], id0 := id0, id1 := id1 } := by
    rw [Block.received, hbuf, List.nil_append, List.take_of_length_le hlen.le, hin, hN]
    exact decodeFrame_encodeFrame s.cfg s.cfg.typeReply [p0, p1, p2, p3] id0 id1
  have hunknown : isReplySub p0 ≠ true := mt isReplySub_iff.mp (by simp only [h2, h6, h7, h8, or_self, not_false_eq_true])
  have ht : t = afterRx _ { s with link := _ } := linkRxStep_delivered (by decide) hrx
  rw [ht, rxProgress_eq, if_pos (by simp [hcnt, hlen, hN]), rxComplete_accepted hdec hexp.symm, afterRx_accepted]
  exact ⟨rfl, rfl, (typedDecode_reply htypes ..).trans (if_neg hunknown)⟩

/-! ### A command and its reply (R138, R155, R158) -/

/-- With the last byte of an exchange its reception begins, and the host side holds the frame sent (R181). -/
theorem linkTxStep_accepted_last {k : Nat} {s : State} (hk : 1 ≤ k) (hp : s.blk.phase = .tx)
    (hlast : s.blk.txPtr + k = s.cfg.nCmd) (hchain : s.blk.status.chain = true) :
    linkTxStep (.accepted k) s = { s with
      blk := { s.blk with txPtr := s.cfg.nCmd, phase := .rx, status := { s.blk.status with chain := false } }
      link := { s.link with outgoing := s.link.outgoing ++ (s.blk.txBuf.drop s.blk.txPtr).take k }
      port := { s.port with command := some s.blk.txBuf } } := by
  rw [linkTxStep_accepted hk ⟨hp, hlast.le⟩, txProgress, if_pos hlast, if_pos hchain, afterTx, if_pos hlast, hlast]

/-- A command whose frame went out, in chunks of any sizes: a reception of its reply, which no byte has reached yet, and the
frame on the host's side (R82, R174, R181). -/
theorem runTx_of_runCommand {sub rw arg id0 id1 exp : Byte} {s t : State} {ks : List Nat}
    (h : runCommand sub rw arg id0 id1 exp s = .next t) (hN : 9 ≤ s.cfg.nCmd) (hin : s.link.incoming = [])
    (hpos : ∀ k ∈ ks, 1 ≤ k) (hsum : ks.sum = s.cfg.nCmd) :
    (runTx ks t).AwaitsFrame ∧ (runTx ks t).cfg = s.cfg ∧ (runTx ks t).blk.expType = exp ∧
      (runTx ks t).port.command = some (encodeFrame s.cfg s.cfg.typeCmd (commandPayload s.cfg sub rw arg) id0 id1) := by
  obtain ⟨-, rfl⟩ := runCommand_next h
  have hne : ks ≠ [] := by
    rintro rfl
    simp at hsum
    omega
  rw [chunkSizesDoNotMatter.1 _ ks rfl hne hpos (by simp [hsum, beginXchg]),
    linkTxStep_accepted_last (by omega) rfl (by simp [hsum, beginXchg]) rfl]
  exact ⟨⟨rfl, rfl, rfl, hin⟩, rfl, rfl, rfl⟩

/-- Which command frames are set commands (R131 to R135). -/
theorem answersSetCommand_commandFrame (c : Config) (sub rw arg id0 id1 : Byte) :
    answersSetCommand c (some (encodeFrame c c.typeCmd (commandPayload c sub rw arg) id0 id1)) =
      (rw == rwSet && (sub == subReportingMode || sub == subDeviceMode || sub == subWorkingPeriod)) := by
  simp [answersSetCommand, isSetCommand, encodeFrame_eq, commandPayload]

/-- Settles O59: the command's frame goes out and its reception begins, and REPLY_FIRMWARE is read by the frame sent. -/
theorem replyIsDecodedByTheCommandSent : Obligations.ReplyIsDecodedByTheCommandSent := by
  intro s n id0 id1 a b d r0 r1 cs ks hb hN hR hin htypes hpos hsum hcs p hp
  have hrow : ∃ sub rw arg, exec p.1 s = runCommand sub rw arg id0 id1 s.cfg.typeReply s ∧
      p.2 = if (rw == rwSet && (sub == subReportingMode || sub == subDeviceMode || sub == subWorkingPeriod)) = false
        then .deviceInfo a b d (devId s.cfg.devIdOrder r0 r1) else .ack := by
    simp only [List.mem_cons, List.not_mem_nil, or_false] at hp
    rcases hp with rfl | rfl | rfl | rfl | rfl | rfl <;> exact ⟨_, _, _, rfl, rfl⟩
  obtain ⟨sub, rw, arg, hexec, hy⟩ := hrow
  have hrun : runCommand sub rw arg id0 id1 s.cfg.typeReply s = .next _ := whenIdle_idle _ hb
  obtain ⟨hawaits, hcfg, hexp, hcmd⟩ := runTx_of_runCommand hrun hN hin hpos hsum
  refine ⟨_, _, hexec.trans hrun, rfl, ?_⟩
  generalize runTx ks _ = v at hawaits hcfg hexp hcmd ⊢
  rw [← hcfg] at hR htypes hexp hcmd hy
  rw [arrive_responseBytes_accepted (p0 := subFirmware) hawaits hR hcs hexp, afterAccepted_reply htypes rfl, hcmd,
    answersSetCommand_commandFrame, hy]
  simp [Block.accepted]

end Sys2Proof.Machine
end

section
/-! SUPPORT. The host operations and the link steps they go on in (43_host_operations.md R171 to R190): each case of a
LINK_TX and of a LINK_RX step as an equation, a whole transfer in any chunks, and from these the end of each operation. -/

namespace Sys2Proof.Machine

/-! ### The cases of a LINK_TX step (R180 to R182) -/

/-- With the last byte of a SEND the operation ends with OK, and the host side holds the frame sent (R181). -/
theorem linkTxStep_accepted_end {k : Nat} {s : State} (hk : 1 ≤ k) (hp : s.blk.phase = .tx)
    (hlast : s.blk.txPtr + k = s.cfg.nCmd) (hchain : s.blk.status.chain = false) :
    linkTxStep (.accepted k) s = { s with
      blk := finish .ok { s.blk with txPtr := s.cfg.nCmd }
      link := { s.link with outgoing := s.link.outgoing ++ (s.blk.txBuf.drop s.blk.txPtr).take k }
      port := { s.port with command := some s.blk.txBuf } } := by
  rw [linkTxStep_accepted hk ⟨hp, hlast.le⟩, txProgress, if_pos hlast, if_neg (Bool.eq_false_iff.mp hchain), afterTx,
    if_pos hlast, hlast]

theorem linkTxStep_err {s : State} (e : TErr) (hp : s.blk.phase = .tx) :
    linkTxStep (.err e) s = { s with blk := txFail (.transport e) s.blk } := by
  simp only [linkTxStep, hp]

theorem linkTxStep_accepted_zero {s : State} (hp : s.blk.phase = .tx) :
    linkTxStep (.accepted 0) s = { s with blk := txFail .writeZero s.blk } := by
  simp only [linkTxStep, hp]

theorem linkTxStep_of_not_tx {s : State} (o : WriteOutcome) (h : s.blk.phase ≠ .tx) : linkTxStep o s = s := by
  rcases linkTxStep_cases o s with he | ⟨hp, -⟩ | ⟨hp, -⟩
  · exact he
  · exact absurd hp h
  · exact absurd hp h

/-- Settles O24: the case of a partial chunk, and the two of the last one, by CHAIN. -/
theorem transmitProgress : Obligations.TransmitProgress := fun _ _ hp hk _ =>
  ⟨linkTxStep_accepted_partial hk hp, linkTxStep_accepted_last hk hp, linkTxStep_accepted_end hk hp⟩

/-- Settles O25: the two cases of a failure. -/
theorem transmitFailure : Obligations.TransmitFailure := fun _ hp =>
  ⟨fun e => linkTxStep_err e hp, linkTxStep_accepted_zero hp⟩

/-! ### The cases of a LINK_RX step (R183 to R185) -/

/-- The block with a whole frame in `RXBUF`, before its verdict (R184). -/
def Block.receivedFrame (c : Config) (bytes : List Byte) (b : Block) : Block :=
  { b with rxBuf := bytes, rxCnt := c.nRsp }

/-- The step of the last byte completes the reception with the whole frame in `RXBUF` (R184). -/
theorem linkRxStep_delivered_last {k : Nat} {s : State} (hk : 1 ≤ k) (hp : s.blk.phase = .rx)
    (hlast : s.blk.rxCnt + k = s.cfg.nRsp) (hlen : k ≤ s.link.incoming.length) :
    linkRxStep (.delivered k) s =
      afterRx (rxComplete s.cfg (s.blk.receivedFrame s.cfg (s.blk.rxBuf ++ s.link.incoming.take k)))
        { s with link := { s.link with incoming := s.link.incoming.drop k } } := by
  have htake : (s.link.incoming.take k).length = k := List.length_take_of_le hlen
  rw [linkRxStep_delivered hk ⟨hp, hlast.le, hlen⟩, rxProgress_eq, Block.received, htake, if_pos hlast, hlast,
    Block.receivedFrame]

theorem linkRxStep_err {s : State} (e : TErr) (hp : s.blk.phase = .rx) :
    linkRxStep (.err e) s = afterRx (rxFail (.transport e) s.blk) s := by
  simp only [linkRxStep, hp]

theorem linkRxStep_delivered_zero {s : State} (hp : s.blk.phase = .rx) :
    linkRxStep (.delivered 0) s = afterRx (rxFail .readZero s.blk) s := by
  simp only [linkRxStep, hp]

/-- A draw of more bytes than the reception needs or `S` holds is no step (R61; log entry 4). -/
theorem linkRxStep_delivered_of_not_enabled {k : Nat} {s : State} (hk : 1 ≤ k) (h : ¬ RxEnabled k s) :
    linkRxStep (.delivered k) s = s := by
  by_cases hp : s.blk.phase = .rx
  · obtain ⟨k, rfl⟩ := Nat.exists_eq_add_of_le' hk
    simp only [linkRxStep, hp]
    exact if_neg fun hin => h ⟨hp, hin⟩
  · exact linkRxStep_of_not_rx _ hp

/-- Settles O26: the case of a partial chunk, whose bytes are as many as were drawn. -/
theorem receiveProgress : Obligations.ReceiveProgress := by
  intro s k hp hk hlt hlen
  rw [linkRxStep_delivered_partial hk hp hlt hlen, Block.received, List.length_take_of_le hlen]

/-- Settles O28: the two cases of a failure. -/
theorem receiveFailure : Obligations.ReceiveFailure := by
  intro s hp failed
  refine ⟨fun e => ?_, ?_⟩
  · rw [linkRxStep_err e hp]
    exact ⟨rfl, rfl⟩
  · rw [linkRxStep_delivered_zero hp]
    exact ⟨rfl, rfl⟩

/-- Settles O29: by the phase, and an empty `S` holds no byte to deliver. -/
theorem disabledLinkStepsDoNothing : Obligations.DisabledLinkStepsDoNothing := by
  refine ⟨fun s o => linkTxStep_of_not_tx o, fun s o => linkRxStep_of_not_rx o, fun s k hk hin => ?_⟩
  refine linkRxStep_delivered_of_not_enabled hk fun ⟨_, _, hlen⟩ => ?_
  rw [hin, List.length_nil] at hlen
  omega

/-! ### The completion of a reception (R184) -/

section ReceivedFrame
variable {c : Config} {bytes : List Byte}

/-- A rejected frame leaves the field registers as they were (R184). -/
theorem rxComplete_receivedFrame_error {e : ResultCode} (h : decodeFrame c c.nRsp bytes = .error e) (b : Block) :
    rxComplete c (b.receivedFrame c bytes) = finish e (b.receivedFrame c bytes) :=
  rxComplete_error h

/-- A frame that decodes is in the field registers, whether its type is the expected one or not (R184). -/
theorem rxComplete_receivedFrame_ok {f : Frame} (h : decodeFrame c c.nRsp bytes = .ok f) (b : Block) :
    rxComplete c (b.receivedFrame c bytes) = finish (if f.type = b.expType then .ok else .unexpectedResponse)
      { b.receivedFrame c bytes with rxFrame := some f, status := { b.status with rxValid := true } } :=
  rxComplete_ok h

end ReceivedFrame

/-- The verdicts of a completion: a structural code, or one of the type check's two (R102, R110). -/
theorem rxComplete_result_cases (c : Config) (b : Block) :
    let r := (rxComplete c b).status.result
    r = .ok ∨ r = .invalidLength ∨ r = .invalidHead ∨ r = .invalidTail ∨ r = .checksumMismatch ∨
      r = .unexpectedResponse := by
  rcases rxComplete_cases c b with ⟨e, he, h⟩ | ⟨f, -, h⟩ <;> simp only [h, finish_result]
  · rcases decodeFrame_error he with rfl | rfl | rfl | rfl <;> decide
  · unfold typeCheck
    split <;> decide

/-- Settles O27: the step completes the reception, and a frame of `N_RSP` bytes has no wrong length. -/
theorem receptionComplete : Obligations.ReceptionComplete := by
  intro s k hp hk hlast hlen hbuf _ window t
  have ht : t = afterRx (rxComplete s.cfg (s.blk.receivedFrame s.cfg window)) _ :=
    linkRxStep_delivered_last hk hp hlast hlen
  have hwindow : window.length = s.cfg.nRsp := by
    rw [List.length_append, List.length_take_of_le hlen, hbuf, hlast]
  rw [ht]
  refine ⟨rfl, rfl, rfl, fun code hdec => ⟨?_, rxComplete_receivedFrame_error hdec _⟩,
    fun f hdec => rxComplete_receivedFrame_ok hdec _⟩
  exact decodeFrame_error_of_length (hwindow ▸ hdec)

/-! ### A whole transfer, in chunks of any sizes (R61) -/

section WholeTransmission
variable {s : State} {ks : List Nat} (hp : s.blk.phase = .tx) (hptr : s.blk.txPtr = 0) (hpos : ∀ k ∈ ks, 1 ≤ k)
  (hsum : ks.sum = s.cfg.nCmd) (hN : 1 ≤ s.cfg.nCmd)
include hp hptr hpos hsum hN

/-- A transmission from its start is one LINK_TX step of `N_CMD` bytes. -/
theorem runTx_whole : runTx ks s = linkTxStep (.accepted s.cfg.nCmd) s := by
  rw [← hsum]
  exact chunkSizesDoNotMatter.1 s ks hp (List.ne_nil_of_length_pos (ks.length_pos_of_sum_pos (hsum ▸ hN))) hpos (by omega)

variable (hlen : s.blk.txBuf.length = s.cfg.nCmd)
include hlen

/-- The transmission of a SEND puts the frame on the link and ends with OK (R172, R181). -/
theorem runTx_whole_of_send (hchain : s.blk.status.chain = false) :
    runTx ks s = { s with
      blk := finish .ok { s.blk with txPtr := s.cfg.nCmd }
      link := { s.link with outgoing := s.link.outgoing ++ s.blk.txBuf }
      port := { s.port with command := some s.blk.txBuf } } := by
  rw [runTx_whole hp hptr hpos hsum hN, linkTxStep_accepted_end hN hp (by omega) hchain, hptr, List.drop_zero,
    List.take_of_length_le hlen.le]

/-- The transmission of an exchange puts the frame on the link and turns to the reception (R174, R181). -/
theorem runTx_whole_of_exchange (hchain : s.blk.status.chain = true) :
    runTx ks s = { s with
      blk := { s.blk with txPtr := s.cfg.nCmd, phase := .rx, status := { s.blk.status with chain := false } }
      link := { s.link with outgoing := s.link.outgoing ++ s.blk.txBuf }
      port := { s.port with command := some s.blk.txBuf } } := by
  rw [runTx_whole hp hptr hpos hsum hN, linkTxStep_accepted_last hN hp (by omega) hchain, hptr, List.drop_zero,
    List.take_of_length_le hlen.le]

end WholeTransmission

/-- A reception from its start takes the next `N_RSP` bytes of `S` and completes. -/
theorem runRx_whole {s : State} {ks : List Nat} (hp : s.blk.phase = .rx) (hcnt : s.blk.rxCnt = 0)
    (hbuf : s.blk.rxBuf = []) (hpos : ∀ k ∈ ks, 1 ≤ k) (hsum : ks.sum = s.cfg.nRsp) (hN : 1 ≤ s.cfg.nRsp)
    (hlen : s.cfg.nRsp ≤ s.link.incoming.length) :
    runRx ks s =
      afterRx (rxComplete s.cfg (s.blk.receivedFrame s.cfg (s.link.incoming.take s.cfg.nRsp)))
        { s with link := { s.link with incoming := s.link.incoming.drop s.cfg.nRsp } } := by
  have hone : runRx ks s = linkRxStep (.delivered s.cfg.nRsp) s := by
    rw [← hsum]
    exact chunkSizesDoNotMatter.2 s ks hp (List.ne_nil_of_length_pos (ks.length_pos_of_sum_pos (hsum ▸ hN))) hpos
      (by omega) (by omega)
  rw [hone, linkRxStep_delivered_last hN hp (by omega) hlen, hbuf, List.nil_append]

/-- Settles O32: the reception completes with the first `N_RSP` bytes, and the decoder looks at the first one first. -/
theorem noResynchronisation : Obligations.NoResynchronisation := by
  intro s hp hcnt hbuf hN hlen t
  have ht : t = afterRx _ _ :=
    runRx_whole (ks := [s.cfg.nRsp]) hp hcnt hbuf (List.forall_mem_singleton.mpr (by omega)) List.sum_singleton
      (by omega) hlen
  obtain ⟨hphase, hbusy, -, -⟩ := rxComplete_frame s.cfg (s.blk.receivedFrame s.cfg (s.link.incoming.take s.cfg.nRsp))
  rw [ht]
  refine ⟨rxComplete_rxBuf .., rfl, hphase, hbusy, fun hnone => ?someVerdict, fun hhead => ?invalidHead⟩
  case someVerdict =>
    have hcases := rxComplete_result_cases s.cfg (s.blk.receivedFrame s.cfg (s.link.incoming.take s.cfg.nRsp))
    rw [afterRx_blk] at hnone
    simp [hnone] at hcases
  case invalidHead =>
    obtain ⟨-, hverdict, -⟩ := decodeVerdictByFirstFailingCheck s.cfg s.cfg.nRsp (s.link.incoming.take s.cfg.nRsp) hN
    have hfirst : (s.link.incoming.take s.cfg.nRsp)[0]? ≠ some s.cfg.head := by
      rwa [List.getElem?_take_of_lt (by omega)]
    have hdec := hverdict.mpr ⟨List.length_take_of_le hlen, hfirst⟩
    rw [afterRx_blk, rxComplete_receivedFrame_error hdec, finish_result]

/-! ### The host operations (R171 to R174) -/

/-- Settles O19: ENCODE reads the transmit registers only, which it does not write. -/
theorem encodeBuildsFrame : Obligations.EncodeBuildsFrame := fun _ hb =>
  ⟨_, whenIdle_idle _ hb, rfl, rfl, whenIdle_idle _ hb⟩

/-- Settles O20: both branches of SEND, and the transmission as one step of all `N_CMD` bytes. -/
theorem sendTransmitsTheFrame : Obligations.SendTransmitsTheFrame := by
  intro s hb
  have hsend : exec .send s = _ := whenIdle_idle _ hb
  refine ⟨fun hv => ?noFrame, fun hv => ?frame⟩
  case noFrame => rw [hsend, if_neg (Bool.eq_false_iff.mp hv)]
  case frame =>
    rw [if_pos hv] at hsend
    refine ⟨_, hsend, rfl, fun ks hpos hsum hN hlen => ?_⟩
    exact runTx_whole_of_send rfl rfl hpos hsum hN hlen rfl

/-- Settles O21: RECV clears the receive side, and the reception completes with the first `N_RSP` bytes of `S`. -/
theorem recvChecksTheNextTenBytes : Obligations.RecvChecksTheNextTenBytes := by
  intro s hb
  refine ⟨_, whenIdle_idle _ hb, rfl, ?_⟩
  intro ks hpos hsum hN hlen u
  have hu : u = afterRx _ _ := runRx_whole rfl rfl rfl hpos hsum hN hlen
  rw [hu]
  exact ⟨rfl, rfl, rfl, rfl, fun e hdec => rxComplete_receivedFrame_error hdec _,
    fun f hdec => rxComplete_receivedFrame_ok hdec _⟩

/-- Settles O22: the transmission ends in a reception with nothing received, which completes with the first `N_RSP` bytes
of `S`, those that waited there before the reply. -/
theorem exchangeTransmitsThenReceives : Obligations.ExchangeTransmitsThenReceives := by
  intro s hb
  refine ⟨_, whenIdle_idle _ hb, rfl, rfl, fun o => linkRxStep_of_not_rx o (by simp [beginXchg]), ?_⟩
  intro ks hpos hsum hN hpl u
  have hlen : (encodeFrame s.cfg s.blk.txType s.blk.txPl s.blk.txId0 s.blk.txId1).length = s.cfg.nCmd := by
    rw [encodeFrame_length, hpl, Nat.sub_add_cancel hN]
  have hu : u = _ := runTx_whole_of_exchange rfl rfl hpos hsum (Nat.le_trans (by decide) hN) hlen rfl
  refine ⟨hu, ?_⟩
  rw [hu]
  intro reply js hjpos hjsum hR hin w
  have hw : w = afterRx _ _ := runRx_whole rfl rfl rfl hjpos hjsum hR hin
  refine ⟨congrArg (·.link.incoming) hw, ?_⟩
  cases hdec : decodeFrame s.cfg s.cfg.nRsp ((s.link.incoming ++ reply).take s.cfg.nRsp) with
  | error e =>
    have hblk : w.blk = _ := (congrArg State.blk hw).trans (rxComplete_receivedFrame_error hdec _)
    rw [hblk]
    refine ⟨rfl, rfl, rfl, rfl, rfl, rfl, rfl, fun e' he => ?_, nofun⟩
    cases he
    exact ⟨rfl, rfl, rfl⟩
  | ok f =>
    have hblk : w.blk = _ := (congrArg State.blk hw).trans (rxComplete_receivedFrame_ok hdec _)
    rw [hblk]
    refine ⟨rfl, rfl, rfl, rfl, rfl, rfl, rfl, nofun, fun f' hf => ?_⟩
    cases hf
    exact ⟨rfl, rfl, rfl⟩

/-! ### The result of each operation (R187) -/

/-- The result with which a transmission ends (R181). -/
theorem txProgress_idle {c : Config} {k : Nat} {b : Block} (hp : b.phase = .tx)
    (h : (txProgress c k b).phase = .idle) : (txProgress c k b).status.result = .ok ∧ b.status.chain = false := by
  unfold txProgress at h ⊢
  by_cases hlast : b.txPtr + k = c.nCmd
  · cases hchain : b.status.chain <;> simp [hlast, hchain] at h ⊢
  · simp [hlast, hp] at h

/-- Settles O34: each end of an operation has its cases, and the invariant excludes INVALID_LENGTH. -/
theorem resultOfEachOperation : Obligations.ResultOfEachOperation := by
  intro s hinv
  refine ⟨fun t h => ?encode, fun t h hidle => ?send, fun t h => ?reset, fun o hp hidle => ?transmission,
    fun o hp hidle => ?reception⟩
  case encode =>
    obtain ⟨-, ht⟩ := whenIdle_next.mp h
    cases ht
    rfl
  case send =>
    obtain ⟨-, ht⟩ := whenIdle_next.mp h
    cases ht
    dsimp only at hidle ⊢
    split at hidle
    next => cases hidle
    next hv => rw [if_neg hv]
  case reset =>
    cases h
    rfl
  case transmission =>
    rcases linkTxStep_cases o s with h | ⟨-, why, h⟩ | ⟨-, k, -, -, h⟩ <;> rw [h] at hidle ⊢
    · simp [hp] at hidle
    · exact .inr rfl
    · exact .inl (txProgress_idle hp hidle)
  case reception =>
    have hlength := (hinv.linkRxStep o).result_length
    rcases linkRxStep_ends hp hidle with ⟨why, h⟩ | ⟨bytes, link, h⟩ <;> rw [h] at hlength ⊢
    · simp [rxFail]
    · have hcases := rxComplete_result_cases s.cfg (s.blk.received bytes)
      rw [afterRx_blk] at hlength ⊢
      simp only [hlength, false_or] at hcases
      tauto

end Sys2Proof.Machine
end

section
/-! SUPPORT. How an operation ends and what stops a run (60_exceptions.md R220, R231, R232): the two ends of a
transmission, what a link step leaves unchanged when it ends an operation, and that an event which is no host action answers
a next state without a mark. -/

namespace Sys2Proof.Machine

/-! ### The end of an operation (R220) -/

/-- Progress ends the operation with the last byte of a SEND only: an exchange goes on to receive (R181). -/
theorem txProgress_phase_idle_iff {c : Config} {k : Nat} {b : Block} (hp : b.phase = .tx) :
    (txProgress c k b).phase = .idle ↔ b.txPtr + k = c.nCmd ∧ b.status.chain = false := by
  by_cases hlast : b.txPtr + k = c.nCmd
  · cases hchain : b.status.chain <;> simp [txProgress, hlast, hchain]
  · simp [txProgress, hlast, hp]

/-- A LINK_TX step that ends the operation fails the transmission or has sent the whole frame of a SEND (R181, R182). -/
theorem linkTxStep_ends {o : WriteOutcome} {s : State} (hp : s.blk.phase = .tx)
    (hidle : (linkTxStep o s).blk.phase = .idle) :
    (∃ why, linkTxStep o s = { s with blk := txFail why s.blk }) ∨
    ∃ outgoing, linkTxStep o s = { s with
      blk := finish .ok { s.blk with txPtr := s.cfg.nCmd }
      link := { s.link with outgoing := outgoing }
      port := { s.port with command := some s.blk.txBuf } } := by
  rcases linkTxStep_cases o s with h | ⟨-, hfail⟩ | ⟨-, k, -, -, h⟩
  · simp [h, hp] at hidle
  · exact .inl hfail
  · rw [h] at hidle
    obtain ⟨hlast, hchain⟩ := (txProgress_phase_idle_iff hp).mp hidle
    rw [txProgress, if_pos hlast, if_neg (Bool.eq_false_iff.mp hchain), afterTx, if_pos hlast, hlast] at h
    exact .inr ⟨_, h⟩

theorem linkRxStep_outgoing (o : ReadOutcome) (s : State) : (linkRxStep o s).link.outgoing = s.link.outgoing := by
  rcases linkRxStep_cases o s with h | ⟨-, _, h⟩ | ⟨-, _, -, -, -, h⟩ <;> rw [h] <;> rfl

/-- Settles O35: each end of an operation is a failure or a completion, and each of these writes the fields named. -/
theorem endOfOperationFrame : Obligations.EndOfOperationFrame := by
  refine ⟨fun o s hp hidle => ?transmission, fun o s hp hidle => ?reception⟩
  case transmission =>
    rcases linkTxStep_ends hp hidle with ⟨why, h⟩ | ⟨outgoing, h⟩ <;> rw [h] <;> rfl
  case reception =>
    have hout := linkRxStep_outgoing o s
    rcases linkRxStep_ends hp hidle with ⟨why, h⟩ | ⟨bytes, ⟨incoming, outgoing⟩, h⟩ <;> rw [h] at hout ⊢
    · rfl
    · cases hout
      rcases rxComplete_cases s.cfg (s.blk.received bytes) with ⟨e, -, hr⟩ | ⟨f, -, hr⟩ <;> rw [hr] <;> rfl

/-! ### What stops a run (R231, R232) -/

/-- Bytes offered as a response frame arrive, whether or not they are a row of the table (R35, R79). -/
theorem runEvent_rspFrame (bs : List Byte) (s : State) : runEvent (.fetch (.rspFrame bs)) s = .next (arrive bs s) := by
  cases hd : decode s.cfg (.rspFrame bs) with
  | ok i => exact (runEvent_fetch_ok s hd).trans (exec_of_encode_rspFrame (encode_of_decodeResponse hd).1).1
  | error e => exact runEvent_fetch_error s hd

theorem linkTxStep_faulted (o : WriteOutcome) (s : State) : (linkTxStep o s).faulted = s.faulted := by
  rcases linkTxStep_cases o s with h | ⟨-, _, h⟩ | ⟨-, _, -, -, h⟩ <;> rw [h]

theorem linkRxStep_faulted (o : ReadOutcome) (s : State) : (linkRxStep o s).faulted = s.faulted := by
  rcases linkRxStep_cases o s with h | ⟨-, _, h⟩ | ⟨-, _, -, -, -, h⟩ <;> rw [h] <;> rfl

theorem arrive_faulted (bs : List Byte) (s : State) : (arrive bs s).faulted = s.faulted := by
  rcases arrive_cases bs s with h | ⟨k, h⟩ <;> rw [h]
  · rfl
  · exact linkRxStep_faulted (.delivered k) (sensorAppend bs s)

/-- An event that is no host action completes in every state and marks no run (R231). -/
theorem runEvent_next_of_not_hostAction {ev : Event} (h : isHostAction ev = false) (s : State) :
    ∃ t, runEvent ev s = .next t ∧ t.faulted = s.faulted := by
  cases ev with
  | fetch tr =>
    cases tr with
    | rspFrame bs => exact ⟨_, runEvent_rspFrame bs s, arrive_faulted bs s⟩
    | hostRead | hostWrite | cmdFrame => cases h
  | linkTx o => exact ⟨_, rfl, linkTxStep_faulted o s⟩
  | linkRx o => exact ⟨_, rfl, linkRxStep_faulted o s⟩
  | sensor | lose | flush | resetInput => exact ⟨_, rfl, rfl⟩

/-- A run that is not marked and has no host action to come: what every step of the other agents keeps (R18, R231). -/
def State.Unattended (s : State) : Prop := s.faulted = none ∧ ∀ e ∈ s.agenda, isHostAction e = false

theorem State.Unattended.step {s : State} (h : s.Unattended) : ∃ t, Machine.step s = .next t ∧ t.Unattended := by
  obtain ⟨hf, hhost⟩ := h
  cases ha : s.agenda with
  | nil => exact ⟨s, step_of_agenda_nil hf ha, hf, hhost⟩
  | cons ev rest =>
    rw [ha, List.forall_mem_cons] at hhost
    obtain ⟨hev, hrest⟩ := hhost
    obtain ⟨t, ht, htf⟩ := runEvent_next_of_not_hostAction hev { s with agenda := rest }
    have hagenda : t.agenda = rest := (runEvent_sameRun ht).2
    exact ⟨t, (step_of_agenda_cons hf ha).trans ht, htf.trans hf, hagenda ▸ hrest⟩

/-- Settles O44: every step of an unattended run completes and leaves it unattended, for any number of steps. -/
theorem onlyHostActionsStopTheMachine : Obligations.OnlyHostActionsStopTheMachine := by
  suffices hrun : ∀ (n : Nat) (s : State), s.Unattended → SafeRun n s from fun s n hf hhost => hrun n s ⟨hf, hhost⟩
  intro n
  induction n with
  | zero => exact fun s h => ⟨s, rfl, h.1⟩
  | succ n ih =>
    intro s h
    obtain ⟨t, ht, hnext⟩ := h.step
    obtain ⟨u, hu, huf⟩ := ih t hnext
    exact ⟨u, (core_run_succ_of_next n ht).trans hu, huf⟩

end Sys2Proof.Machine
end

section
/-! SUPPORT. Reset and the hazards of a busy block (70_reset_and_hazards.md R240 to R242, R253, R256): what reset writes,
what the host can still do while an operation is in progress, and which read marks a run as faulted. -/

namespace Sys2Proof.Machine

/-! ### Reset (R175, R240 to R242) -/

/-- Both ID registers hold 0xFF at reset: the two bytes of the broadcast ID (R240). -/
theorem broadcastId_bytes : broadcastId.extractLsb' 8 8 = 0xFF ∧ broadcastId.extractLsb' 0 8 = 0xFF := by decide

/-- The reset values as numbers (R240). -/
theorem Block.reset_eq (c : Config) : Block.reset c = {
    phase := .idle
    status := { result := .none, busy := false, txValid := false, rxValid := false, chain := false }
    txType := c.typeCmd, expType := c.typeReply, txId0 := 0xFF, txId1 := 0xFF
    txPl := List.replicate c.pCmd 0, txBuf := List.replicate c.nCmd 0, txPtr := 0
    rxBuf := [], rxCnt := 0, rxFrame := none, terr := none } := by
  rw [Block.reset, broadcastId_bytes.1, broadcastId_bytes.2]

/-- Settles O23: RESET and the reset input are `resetBlock`, whose block has the values of R240. -/
theorem resetValues : Obligations.ResetValues := by
  refine ⟨fun s => ?exec, fun s => ?input, Block.reset_eq Config.default, rfl⟩
  case exec => rw [exec, execReset, resetBlock, Block.reset_eq]
  case input => rw [runEvent, resetBlock, Block.reset_eq]

/-! ### The host while an operation is in progress (R41, R253) -/

/-- A well-formed WR to a busy block breaks one of the access rules (R41). -/
theorem execWr_busy_faults {a v : Byte} {s : State} (ha : a ≠ 0x00) (hb : s.blk.status.busy = true) :
    ∃ f, execWr a v s = .fault f := by
  cases h : regAt s.cfg a with
  | none => exact ⟨_, execWr_reserved h⟩
  | some r =>
    cases hr : r.isConfig with
    | true => exact ⟨_, (execWr_config h hr).trans (whenIdle_busy _ hb)⟩
    | false =>
      have hc : r ≠ .ctrl := by
        rintro rfl
        exact ha (regAt_eq_ctrl.mp h)
      exact ⟨_, execWr_readOnly h hr hc⟩

/-- A host instruction other than RESET to a busy block is a read, or it faults (R41, R170). -/
theorem isRead_or_faults_of_busy {i : Instr} {s : State} (hb : s.blk.status.busy = true) (hresp : isResponse i = false)
    (hreset : i ≠ .reset) (hwf : i.wellFormed = true) : (∃ a, i = .rd a) ∨ ∃ f, exec i s = .fault f := by
  cases i with
  | rd a => exact .inl ⟨a, rfl⟩
  | wr a v => exact .inr (execWr_busy_faults (bne_iff_ne.mp hwf) hb)
  | reset => exact absurd rfl hreset
  | encode | send | recv | xchg => exact .inr ⟨_, whenIdle_busy _ hb⟩
  | setReportingQuery | setReportingActive | setSleep | setWork | setWorkingPeriod | queryFirmware | queryData =>
    exact .inr ⟨_, whenIdle_busy _ hb⟩
  | dataReport | replyReportingMode | replyDeviceMode | replyWorkingPeriod | replyFirmware => cases hresp

/-- Settles O42: the instruction is a read, which leaves block and link as they are, or it faults. -/
theorem onlyResetEndsABusyOperation : Obligations.OnlyResetEndsABusyOperation := by
  intro i s hb hresp hreset hwf
  have hcases := isRead_or_faults_of_busy hb hresp hreset hwf
  refine ⟨fun t ht => ?_, hcases⟩
  rcases hcases with ⟨a, rfl⟩ | ⟨f, hf⟩
  · obtain ⟨r, v, -, -, rfl⟩ := execRd_next ht
    exact ⟨⟨a, rfl⟩, markRead_blk r _, markRead_link r _⟩
  · rw [hf] at ht
    cases ht

/-- A run with no agent scheduled stays where it is for any number of steps (R19). -/
theorem core_run_of_agenda_nil {s : State} (hf : s.faulted = none) (ha : s.agenda = []) (n : Nat) :
    Host.Core.run Sys2Proof.core n s = .next s := by
  induction n with
  | zero => rfl
  | succ n ih => exact (core_run_succ_of_next n (step_of_agenda_nil hf ha)).trans ih

/-- Settles O43: no agent moves, `STATUS` shows its `BUSY` bit, and the block of RESET is idle. -/
theorem stuckOperationWaitsForReset : Obligations.StuckOperationWaitsForReset := by
  rintro s ⟨hb, ha, hf⟩
  refine ⟨core_run_of_agenda_nil hf ha, ?status, resetBlock s, rfl, rfl, rfl⟩
  case status =>
    exact ⟨polled s, s.blk.status.toByte, execRd_addr (r := .status) rfl rfl rfl, rfl, rfl,
      (Status.busy_of_toByte _).trans hb⟩

/-! ### The host's read rule, and the mark of a faulted run (R232, R256) -/

/-- The reads that break the rule: `TERR` without a transport error, and a field register of a busy block or of one that
has accepted no frame. -/
theorem keepsReadRule_eq_false {i : Instr} {s : State} : keepsReadRule i s = false ↔
    ∃ a r, i = .rd a ∧ regAt s.cfg a = some r ∧
      (r = .terr ∧ s.blk.status.result ≠ .transportError ∨
        r.isField = true ∧ (s.blk.status.busy = true ∨ s.blk.status.rxValid = false)) := by
  cases i with
  | rd a =>
    cases hr : regAt s.cfg a with
    | none => simp [keepsReadRule, hr]
    | some r =>
      by_cases hterr : r = .terr
      · subst hterr
        simp [keepsReadRule, hr, Reg.isField]
      · cases hb : s.blk.status.busy <;> simp [keepsReadRule, hr, hterr, hb]
  | _ => simp [keepsReadRule]

/-- Everything an instruction can do to the mark: only the read of a field register of a busy block sets it. -/
theorem exec_faulted_cases {i : Instr} {s t : State} (h : exec i s = .next t) :
    t.faulted = s.faulted ∨
    (t.faulted = some .noValue ∧
      ∃ a r, i = .rd a ∧ regAt s.cfg a = some r ∧ r.isField = true ∧ s.blk.status.busy = true) := by
  rcases exec_next_cases h with ⟨b, rfl⟩ | ⟨a, rfl, hrd⟩ | ⟨bs, -, rfl⟩
  · exact .inl rfl
  · obtain ⟨r, v, hr, -, rfl⟩ := execRd_next hrd
    rcases markRead_cases r { s with port := { s.port with rdData := some v } } with ⟨hm, -⟩ | ⟨hm, hf, hb⟩ <;> rw [hm]
    · exact .inl rfl
    · exact .inr ⟨rfl, a, r, rfl, hr, hf, hb⟩
  · exact .inl (arrive_faulted bs s)

/-- An instruction that keeps the read rule puts no mark on the run (R256). -/
theorem exec_faulted_of_keepsReadRule {i : Instr} {s t : State} (hkeep : keepsReadRule i s = true)
    (h : exec i s = .next t) : t.faulted = s.faulted := by
  rcases exec_faulted_cases h with hsame | ⟨-, a, r, hi, hr, hf, hb⟩
  · exact hsame
  · have hbreak := keepsReadRule_eq_false.mpr ⟨a, r, hi, hr, .inr ⟨hf, .inl hb⟩⟩
    simp [hbreak] at hkeep

/-- No instruction clears the mark (R232). -/
theorem exec_keeps_mark {i : Instr} {s t : State} (h : exec i s = .next t) (ht : t.faulted = none) : s.faulted = none := by
  rcases exec_faulted_cases h with hsame | ⟨hmark, -⟩
  · exact hsame.symm.trans ht
  · rw [hmark] at ht
    cases ht

/-- A step that answers is a step of a run not marked (R232). -/
theorem faulted_eq_none_of_step {s t : State} (h : step s = .next t) : s.faulted = none := by
  cases hf : s.faulted with
  | none => rfl
  | some r =>
    rw [step_faulted hf] at h
    cases h

/-- A safe run starts in a state that is not marked (R232). -/
theorem faulted_eq_none_of_safeRun {n : Nat} {s : State} (h : SafeRun n s) : s.faulted = none := by
  obtain ⟨u, hu, huf⟩ := h
  cases n with
  | zero =>
    cases hu
    exact huf
  | succ n =>
    obtain ⟨t, ht, -⟩ := core_run_succ_next hu
    exact faulted_eq_none_of_step ht

theorem hostExec_faulted {s : State} {r : Fault} (h : s.faulted = some r) (i : Instr) : hostExec i s = .fault r := by
  simp [hostExec, h]

/-- The read of a field register that the invariant gives a value, of a busy block: the value, and the mark (R256). -/
theorem State.Inv.execRd_field_busy {s : State} (h : s.Inv) {a : Byte} {r : Reg} (hr : regAt s.cfg a = some r)
    (hf : r.isField = true) (hv : s.blk.status.rxValid = true) (hb : s.blk.status.busy = true) :
    ∃ v, readReg r s.blk = some v ∧
      Machine.execRd a s = .next { s with port := { s.port with rdData := some v }, faulted := some .noValue } := by
  obtain ⟨rfl, hp⟩ := regAt_eq_some.mp hr
  obtain ⟨v, hval⟩ := Option.isSome_iff_exists.mp (h.readReg_field hp hf hv)
  refine ⟨v, hval, (execRd_field_addr hp hf hval).trans ?_⟩
  rw [if_pos hb]

/-- Settles O60: a read that breaks the rule is of `TERR` or of a field register, which has a value or none by `RXVALID`;
only such a read sets the mark, and nothing clears it. -/
theorem readRuleAndFaultedRuns : Obligations.ReadRuleAndFaultedRuns := by
  refine ⟨fun i s => ⟨fun hkeep _ => exec_faulted_of_keepsReadRule hkeep, fun hbreak hinv => ?broken⟩,
    fun s r hf => ⟨step_faulted hf, fun n hsafe => ?notSafe, hostExec_faulted hf⟩, fun _ _ _ => exec_keeps_mark,
    fun _ _ h _ => faulted_eq_none_of_step h⟩
  case broken =>
    obtain ⟨a, r, rfl, hr, ⟨rfl, hres⟩ | ⟨hfield, hwhy⟩⟩ := keepsReadRule_eq_false.mp hbreak
    · have ha : a = 0x09 := (regAt_eq_some.mp hr).1.symm
      exact .inl ⟨execRd_noValue hr (if_neg hres), .inr ⟨congrArg Instr.rd ha, hres⟩⟩
    · cases hv : s.blk.status.rxValid with
      | false => exact .inl ⟨execRd_noValue hr (readReg_field_invalid hfield hv), .inl rfl⟩
      | true =>
        have hb : s.blk.status.busy = true := by simpa [hv] using hwhy
        obtain ⟨v, hval, hexec⟩ := hinv.execRd_field_busy hr hfield hv hb
        exact .inr ⟨rfl, hb, a, r, v, rfl, hr, hfield, hval, hexec⟩
  case notSafe =>
    rw [faulted_eq_none_of_safeRun hsafe] at hf
    cases hf

end Sys2Proof.Machine
end
